-- ==== Sys2Proof/Word.lean ====
section
/-! DEFINITION. The data containers of the AES core: bytes, command words, columns, the 4 by 4 matrix and the linear block
(spec/00_scope.md R10, R11, R13; spec/10_state.md R22, R25). They are pure containers and hold no cryptographic behaviour. -/

namespace Sys2Proof

/-- A byte: 8 bits, unsigned; bit 7 is the most significant (R10). -/
abbrev Byte := BitVec 8

/-- A 16-bit command word `CW` (R80). -/
abbrev Word := BitVec 16

/-- A column: four bytes, row 0 to row 3 (R13, R17). -/
structure Column where
  r0 : Byte
  r1 : Byte
  r2 : Byte
  r3 : Byte
deriving DecidableEq, Repr, Inhabited

/-- The byte of a column at a row. -/
def Column.get (x : Column) : Fin 4 → Byte
  | 0 => x.r0
  | 1 => x.r1
  | 2 => x.r2
  | 3 => x.r3

/-- The column whose byte at row `r` is `f r`. -/
def Column.ofFn (f : Fin 4 → Byte) : Column := ⟨f 0, f 1, f 2, f 3⟩

/-- The 4 by 4 byte matrix, held as its four columns (R13, R25). -/
structure Mat where
  c0 : Column
  c1 : Column
  c2 : Column
  c3 : Column
deriving DecidableEq, Repr, Inhabited

/-- Column `c` of a matrix. -/
def Mat.col (m : Mat) : Fin 4 → Column
  | 0 => m.c0
  | 1 => m.c1
  | 2 => m.c2
  | 3 => m.c3

/-- `S[r][c]`: the byte at row `r`, column `c` (R13). -/
def Mat.get (m : Mat) (r c : Fin 4) : Byte := (m.col c).get r

/-- The matrix whose byte at row `r`, column `c` is `f r c`. -/
def Mat.ofFn (f : Fin 4 → Fin 4 → Byte) : Mat :=
  ⟨Column.ofFn (f · 0), Column.ofFn (f · 1), Column.ofFn (f · 2), Column.ofFn (f · 3)⟩

/-- `Bytes[16]`: a block, an IV or a chain value in linear order (R11, R16). -/
abbrev Block := Vector Byte 16

/-- The schedule store `W[0]` to `W[59]` (R22). -/
abbrev Sched := Vector Column 60

end Sys2Proof
end

