-- ==== Sys2Proof/Config.lean ====
section
/-! DEFINITION. What the spec fixes for every key length (spec/00_scope.md R7) and the free values: opaque constants with no
body that stand for every value the spec leaves unspecified (spec/93_implementation_defined.md U4, U5, U7). -/

namespace Sys2Proof.Config

/-- `Nb`: columns of a block (R7). -/
def nb : Nat := 4

/-- `BLOCK`, and `IVLEN_OK`: bytes of a block and of an IV (R7). -/
def blockBytes : Nat := 16

/-- `SCHED_COLS`: columns of the schedule store (R7). -/
def schedCols : Nat := 60

/-- The stream of free bytes. The `n`-th byte drawn is `freeByte n`; nothing constrains it. The field `State.fresh` counts
the bytes drawn. It stands for each value the spec calls unspecified or "any value" (U4, U5; notes/assumptions/2.md).
DESIGN CHOICE: the form of the free value is the model's; safe. -/
opaque freeByte : Nat → Byte

/-- The content of a buffer byte that nothing has written since the reset numbered `epoch`: any value, the same at every
read (R37, R57; notes/assumptions/3.md). DESIGN CHOICE: safe. The second argument is the buffer's number, the third the
offset. -/
opaque unwrittenByte : Nat → Nat → Nat → Byte

/-- `rcon(n)` for `n` above 9, which the spec leaves undefined and no command evaluates (R132, U7;
notes/assumptions/4.md). DESIGN CHOICE: safe. -/
opaque rconBeyond : Nat → Byte

/-- A schedule column numbered 60 or more, which does not exist and which no operation reads under a legal pair NK, NR; with
NR = 15, a free value NR may have, ADDROUNDKEY 15 reads it (R22; notes/assumptions/4.md). DESIGN CHOICE: safe. -/
opaque absentColumn : Nat → Column

end Sys2Proof.Config
end

