-- ==== Sys2Proof/Syntax.lean ====
section
/-! DEFINITION. The operations of the AES core: the seven host commands and the eleven unit operations, one constructor for
each row of spec/opcode_table.json (spec/30_encoding.md R83, R85). Every operand but ARG is implicit (R86). -/

namespace Sys2Proof

/-- An operation. The host issues the first seven by a write to CMD; the engine's sequencers issue the others on the
unit-operation bus (R17, R82). -/
inductive Instr where
  /-- EXPKEY, 0x0001: expand the key (R137). -/
  | expkey
  /-- ENCBLK, 0x0002: encrypt one block under the schedule in W (R201). -/
  | encblk
  /-- DECBLK, 0x0003: decrypt one block under the schedule in W (R202). -/
  | decblk
  /-- ENCECB, 0x0004: encrypt a buffer, ECB (R222). -/
  | encecb
  /-- DECECB, 0x0005: decrypt a buffer, ECB (R224). -/
  | dececb
  /-- ENCCBC, 0x0006: encrypt a buffer, CBC (R226). -/
  | enccbc
  /-- DECCBC, 0x0007: decrypt a buffer, CBC (R228). -/
  | deccbc
  /-- LDKEY, 0x0080: copy the key into the schedule (R133). -/
  | ldkey
  /-- KEXPCOL c, 0xcc81: derive schedule column `c` (R135). -/
  | kexpcol (c : BitVec 8)
  /-- LDSTATE, 0x0082: load a block into S (R160). -/
  | ldstate
  /-- STSTATE, 0x0083: hand S back as a block (R161). -/
  | ststate
  /-- SUBBYTES, 0x0084 (R164). -/
  | subbytes
  /-- INVSUBBYTES, 0x0085 (R166). -/
  | invsubbytes
  /-- SHIFTROWS, 0x0086 (R167). -/
  | shiftrows
  /-- INVSHIFTROWS, 0x0087 (R168). -/
  | invshiftrows
  /-- MIXCOLUMNS, 0x0088 (R171). -/
  | mixcolumns
  /-- INVMIXCOLUMNS, 0x0089 (R174). -/
  | invmixcolumns
  /-- ADDROUNDKEY k, 0xkk8A: XOR round key `k` into S (R176). -/
  | addroundkey (k : BitVec 8)
deriving DecidableEq, Repr

/-- Is it a host command, format H (CLASS = 0), and no unit operation (R81, R82)? -/
def Instr.isHost : Instr → Bool
  | .expkey | .encblk | .decblk | .encecb | .dececb | .enccbc | .deccbc => true
  | .ldkey | .kexpcol _ | .ldstate | .ststate | .subbytes | .invsubbytes | .shiftrows | .invshiftrows | .mixcolumns
  | .invmixcolumns | .addroundkey _ => false

/-- Is it a bulk command, which takes a key and a whole buffer (R17)? -/
def Instr.isBulk : Instr → Bool
  | .encecb | .dececb | .enccbc | .deccbc => true
  | .expkey | .encblk | .decblk | .ldkey | .kexpcol _ | .ldstate | .ststate | .subbytes | .invsubbytes | .shiftrows
  | .invshiftrows | .mixcolumns | .invmixcolumns | .addroundkey _ => false

/-- The line of a command stream that names the operation: the mnemonic, and for KEXPCOL and ADDROUNDKEY one decimal
operand (R89). -/
def Instr.text : Instr → String
  | .expkey => "EXPKEY"
  | .encblk => "ENCBLK"
  | .decblk => "DECBLK"
  | .encecb => "ENCECB"
  | .dececb => "DECECB"
  | .enccbc => "ENCCBC"
  | .deccbc => "DECCBC"
  | .ldkey => "LDKEY"
  | .kexpcol c => "KEXPCOL " ++ toString c.toNat
  | .ldstate => "LDSTATE"
  | .ststate => "STSTATE"
  | .subbytes => "SUBBYTES"
  | .invsubbytes => "INVSUBBYTES"
  | .shiftrows => "SHIFTROWS"
  | .invshiftrows => "INVSHIFTROWS"
  | .mixcolumns => "MIXCOLUMNS"
  | .invmixcolumns => "INVMIXCOLUMNS"
  | .addroundkey k => "ADDROUNDKEY " ++ toString k.toNat

end Sys2Proof
end

