-- ==== Sys2Proof/Decode.lean ====
section
/-! DEFINITION. Decoding and encoding of the 16-bit command word (spec/30_encoding.md R80 to R88). CMD takes format H words
only, the unit-operation bus format U words only; every other word is reserved and rejected by name (R88). -/

namespace Sys2Proof

/-- Why a word is reserved where it was written (R88). -/
inductive Reserved where
  /-- A format U word on CMD, or a format H word on the unit-operation bus: CLASS is not the port's. -/
  | wrongClass
  /-- Bits 6:4 are not zero. -/
  | reservedBits
  /-- FUNC names no operation of the class. -/
  | noSuchFunc
  /-- ARG is not zero in an operation that takes none. -/
  | argNotZero
deriving DecidableEq, Repr

/-- ARG, bits 15:8 of the command word (R80, R84). -/
def wordArg (cw : Word) : BitVec 8 := cw.extractLsb' 8 8

/-- CLASS, bit 7 of the command word: false for a host command, true for a unit operation (R80). -/
def wordClass (cw : Word) : Bool := cw.getLsbD 7

/-- The reserved bits 6:4 of the command word (R80). -/
def wordRsv (cw : Word) : BitVec 3 := cw.extractLsb' 4 3

/-- FUNC, bits 3:0 of the command word (R80). -/
def wordFunc (cw : Word) : BitVec 4 := cw.extractLsb' 0 4

/-- An operation that takes no ARG: ARG must be zero (R84). -/
def noArg (cw : Word) (i : Instr) : Except Reserved Instr :=
  if wordArg cw = 0 then .ok i else .error .argNotZero

/-- The decoder for CMD: the seven words of R83, and every other word reserved (R87, R88). -/
def decodeCmd (cw : Word) : Except Reserved Instr :=
  if wordClass cw then .error .wrongClass
  else if wordRsv cw ≠ 0 then .error .reservedBits
  else match (wordFunc cw).toNat with
    | 1 => noArg cw .expkey
    | 2 => noArg cw .encblk
    | 3 => noArg cw .decblk
    | 4 => noArg cw .encecb
    | 5 => noArg cw .dececb
    | 6 => noArg cw .enccbc
    | 7 => noArg cw .deccbc
    | _ => .error .noSuchFunc

/-- The decoder for the unit-operation bus (R85, R87). The range of ARG against NK and NR is checked by the unit. -/
def decodeBus (cw : Word) : Except Reserved Instr :=
  if !wordClass cw then .error .wrongClass
  else if wordRsv cw ≠ 0 then .error .reservedBits
  else match (wordFunc cw).toNat with
    | 0 => noArg cw .ldkey
    | 1 => .ok (.kexpcol (wordArg cw))
    | 2 => noArg cw .ldstate
    | 3 => noArg cw .ststate
    | 4 => noArg cw .subbytes
    | 5 => noArg cw .invsubbytes
    | 6 => noArg cw .shiftrows
    | 7 => noArg cw .invshiftrows
    | 8 => noArg cw .mixcolumns
    | 9 => noArg cw .invmixcolumns
    | 10 => .ok (.addroundkey (wordArg cw))
    | _ => .error .noSuchFunc

/-- The operation a word names on the port of its CLASS: CMD for format H, the unit-operation bus for format U (R87). -/
def decodeWord (cw : Word) : Except Reserved Instr :=
  if wordClass cw then decodeBus cw else decodeCmd cw

/-- A command word put together from its fields; bits 6:4 are zero (R80). -/
def packWord (arg : BitVec 8) (cls : Bool) (func : BitVec 4) : Word :=
  arg ++ BitVec.ofBool cls ++ (0 : BitVec 3) ++ func

/-- A format H word: FUNC is MODE in bits 2:1 and DIR in bit 0 (R81). -/
def hostWord (mode : BitVec 2) (dir : Bool) : Word :=
  packWord 0 false ((0 : BitVec 1) ++ mode ++ BitVec.ofBool dir)

/-- The word of an operation (R81 to R85). -/
def encode : Instr → Word
  | .expkey => hostWord 0 true
  | .encblk => hostWord 1 false
  | .decblk => hostWord 1 true
  | .encecb => hostWord 2 false
  | .dececb => hostWord 2 true
  | .enccbc => hostWord 3 false
  | .deccbc => hostWord 3 true
  | .ldkey => packWord 0 true 0
  | .kexpcol c => packWord c true 1
  | .ldstate => packWord 0 true 2
  | .ststate => packWord 0 true 3
  | .subbytes => packWord 0 true 4
  | .invsubbytes => packWord 0 true 5
  | .shiftrows => packWord 0 true 6
  | .invshiftrows => packWord 0 true 7
  | .mixcolumns => packWord 0 true 8
  | .invmixcolumns => packWord 0 true 9
  | .addroundkey k => packWord k true 10

/-- The command word whose low `nbits` bits are `w`, the bits above them zero. -/
def tableWord (nbits w : Nat) : Word := BitVec.ofNat 16 (w % 2 ^ min nbits 16)

/-- The operation the decoder reads from a word numbered as spec/opcode_table.json numbers it: the word's own bit numbers,
since a command word is one 16-bit word that stands in no memory (R80). -/
def decodeTableWord (nbits w : Nat) : Option Instr := (decodeWord (tableWord nbits w)).toOption

end Sys2Proof
end

