-- ==== Sys2Proof/Machine/State.lean ====
section
/-! DEFINITION. The state of the AES core as plain data, its reset value, and the reasons a step can stop
(spec/10_state.md, spec/20_memory.md R50). -/

namespace Sys2Proof.Machine

/-- The error kinds with the codes of STATUS.ERR (spec/60_exceptions.md R250, R251). The reserved codes 6 and 7 are never
written and have no constructor (notes/assumptions/19.md). -/
inductive ErrKind where
  /-- Code 0: the last command completed, or no command since reset. -/
  | none
  /-- Code 1: KLEN is not 16, 24 or 32 (R252). -/
  | invalidKeyLength
  /-- Code 2: DLEN is not 16 at a block command (R253). -/
  | invalidBlockSize
  /-- Code 3: DLEN is no multiple of 16 at a bulk command (R254). -/
  | unalignedData
  /-- Code 4: IVLEN is not 16 at a CBC command (R255). -/
  | invalidIvSize
  /-- Code 5: the host's padding remover's kind, never written by the core (R261). -/
  | corruptPadding
deriving DecidableEq, Repr

/-- The control and status registers CR0 to CR6, in the order of their numbers (R27). -/
inductive CReg where
  | cmd
  | status
  | klen
  | dlen
  | ivlen
  | olen
  | schedinfo
deriving DecidableEq, Repr

/-- The four operand and result buffers (R50). -/
inductive Buffer where
  | keybuf
  | din
  | ivbuf
  | dout
deriving DecidableEq, Repr

/-- The five byte-addressed spaces: the four buffers and the schedule window (R50, R39). -/
inductive Space where
  | buffer (b : Buffer)
  | sched
deriving DecidableEq, Repr

/-- What the outside world does to the block between commands (R20, R27, R39, R50, R290). -/
inductive HostMove where
  /-- A write of a value to a control register; a write to CMD issues the command word (R27, R28). -/
  | writeReg (r : CReg) (v : Nat)
  /-- A read of a control register (R27). -/
  | readReg (r : CReg)
  /-- A write of one byte of a space (R50). -/
  | writeByte (x : Space) (off : Nat) (v : Byte)
  /-- A read of one byte of a space (R50). -/
  | readByte (x : Space) (off : Nat)
  /-- The platform's reset input (R290, R291). -/
  | reset
deriving DecidableEq, Repr

/-- A buffer's contents: (offset, byte) pairs with rising offsets. An offset that is not listed holds no value the spec
gives; what it reads as is `loadByte`'s to say (notes/assumptions/3.md). -/
abbrev Mem := List Host.Cell

/-- The state of the core and of what stands at its ports. -/
@[ext]
structure State where
  /-- STATUS.BUSY: 1 from the issue of a command to its completion (R29). -/
  busy : Bool
  /-- SV: W, NK and NR hold a complete schedule (R24). -/
  sv : Bool
  /-- STATUS.ERR: the error kind of the last finished command (R29). -/
  err : ErrKind
  /-- CR2 KLEN: length of the key in bytes (R30). -/
  klen : Nat
  /-- CR3 DLEN: length of the data in bytes (R30). -/
  dlen : Nat
  /-- CR4 IVLEN: length of the IV in bytes (R30). -/
  ivlen : Nat
  /-- CR5 OLEN: length of the result in bytes (R31). -/
  olen : Nat
  /-- NK: key length in columns (R23). -/
  nk : BitVec 4
  /-- NR: number of rounds (R23). -/
  nr : BitVec 4
  /-- W[0] to W[59]: the schedule store (R22). -/
  w : Sched
  /-- S: the state matrix (R25). -/
  mat : Mat
  /-- CV: the chain register (R26). -/
  cv : Block
  /-- KEYBUF (R50). -/
  keybuf : Mem
  /-- DIN (R50). -/
  din : Mem
  /-- IVBUF (R50). -/
  ivbuf : Mem
  /-- DOUT (R50). -/
  dout : Mem
  /-- MAX_DLEN, an open parameter of the block; `none` is unbounded (R9, D2; notes/assumptions/6.md). Nothing writes it. -/
  maxDlen : Option Nat
  /-- The model's own: the block `b` handed to LDSTATE (R92, R160; notes/assumptions/9.md). -/
  blkIn : Block
  /-- The model's own: the block `o` STSTATE hands back (R92, R161; notes/assumptions/9.md). -/
  blkOut : Block
  /-- The model's own: the words on the unit-operation bus, oldest first (R82, R87; notes/assumptions/8.md). -/
  seq : List Word
  /-- The model's own: the host's moves still to come, oldest first (R20; notes/assumptions/1.md). -/
  host : List HostMove
  /-- The model's own: the value the last host read returned (R27, R50; notes/assumptions/13.md). -/
  rdata : Nat
  /-- The model's own: how many free bytes have been drawn (notes/assumptions/2.md). -/
  fresh : Nat
  /-- The model's own: the number of the reset since which the buffers stand (notes/assumptions/3.md). -/
  epoch : Nat
deriving DecidableEq, Repr

/-- The reasons a step faults: the machine has no such place. -/
inductive Fault where
  /-- Raised by a host read or write at an offset the space does not have (R50; notes/assumptions/15.md). Safe: the
  model stops where the spec describes no place. -/
  | noSuchOffset (x : Space) (off : Nat)
deriving DecidableEq, Repr

/-- The reasons a step is refused: the spec gives the situation no meaning (R6, R270). All are safe: the model has no
successor state where the spec gives none (U14). -/
inductive Refusal where
  /-- Raised by an arm of `exec` whose operation has no meaning yet. Safe. -/
  | notModelled (mnemonic : String)
  /-- Raised by `step` for a reserved word, on CMD or on the unit-operation bus (R88, U1, U8). Safe. -/
  | reservedWord (cw : Word) (why : Reserved)
  /-- Raised by ENCBLK and DECBLK with SV = 0 (R203, U2). Safe. -/
  | noSchedule
  /-- Raised by a bulk command with DLEN above MAX_DLEN (R51, R270, U6). Safe. -/
  | overCapacity
  /-- Raised by `step` for a host move R296 forbids while BUSY = 1 (U3). Safe. -/
  | hostWhileBusy
  /-- Raised by KEXPCOL and ADDROUNDKEY with an ARG outside the range of R84 (R88, U8). Safe. -/
  | argOutOfRange (arg : BitVec 8)
  /-- Raised by LDKEY with a KLEN other than 16, 24 and 32, which the sequencer's check excludes (R133;
  notes/assumptions/11.md). Safe. -/
  | keyLengthUnchecked
deriving DecidableEq, Repr

/-- A column of four zero bytes. -/
def zeroColumn : Column := ⟨0, 0, 0, 0⟩

/-- The state right after reset (R37, R290). SV, BUSY, ERR and the lengths are the spec's. The spec gives no value to W, NK,
NR, S and CV: DESIGN CHOICE zero bytes and the smallest pair R23 admits, unsafe (notes/assumptions/5.md). The buffers list
nothing (notes/assumptions/3.md), MAX_DLEN is unbounded (notes/assumptions/6.md) and the model's own fields start empty. -/
def State.reset : State where
  busy := false
  sv := false
  err := .none
  klen := 0
  dlen := 0
  ivlen := 0
  olen := 0
  nk := 4
  nr := 10
  w := Vector.replicate 60 zeroColumn
  mat := ⟨zeroColumn, zeroColumn, zeroColumn, zeroColumn⟩
  cv := Vector.replicate 16 0
  keybuf := []
  din := []
  ivbuf := []
  dout := []
  maxDlen := none
  blkIn := Vector.replicate 16 0
  blkOut := Vector.replicate 16 0
  seq := []
  host := []
  rdata := 0
  fresh := 0
  epoch := 0

end Sys2Proof.Machine
end

