-- ==== Sys2Proof/Machine/Ops.lean ====
section
/-! DEFINITION. The named operations over buffers, schedule and registers, free values, and the two ends of a command:
completing and taking an error (spec/00_scope.md R14, spec/20_memory.md, spec/60_exceptions.md R256). -/

namespace Sys2Proof.Machine

/-! ### Bytes of a buffer -/

/-- The byte listed at offset `a`, or `none` where nothing is listed. -/
def memRead : Mem → Nat → Option Byte
  | [], _ => none
  | (b, v) :: rest, a => if a = b then some v else memRead rest a

/-- Write one byte, keeping the offsets rising. -/
def memWrite : Mem → Nat → Byte → Mem
  | [], a, v => [(a, v)]
  | (b, x) :: rest, a, v =>
    if a < b then (a, v) :: (b, x) :: rest
    else if a = b then (a, v) :: rest
    else (b, x) :: memWrite rest a v

/-- Write a sequence of bytes at rising offsets from `off` (`MemWrite`, R14). -/
def memWriteBytes : Mem → Nat → List Byte → Mem
  | m, _, [] => m
  | m, off, v :: vs => memWriteBytes (memWrite m off v) (off + 1) vs

/-- The canonical form: offsets strictly rising. An unlisted offset holds no value, so no entry can equal one. -/
def memWf : Mem → Bool
  | [] => true
  | [_] => true
  | (a, _) :: (b, v) :: rest => decide (a < b) && memWf ((b, v) :: rest)

/-- A buffer's number, the second argument of `Config.unwrittenByte`. -/
def Buffer.number : Buffer → Nat
  | .keybuf => 0
  | .din => 1
  | .ivbuf => 2
  | .dout => 3

/-- The bytes listed in a buffer. -/
def State.cells (s : State) : Buffer → Mem
  | .keybuf => s.keybuf
  | .din => s.din
  | .ivbuf => s.ivbuf
  | .dout => s.dout

/-- The byte of a buffer at an offset; one that nothing has written since reset is any value, the same at every read
(R37, R57, U5; notes/assumptions/3.md). DESIGN CHOICE: a free value, safe. -/
def State.loadByte (s : State) (b : Buffer) (off : Nat) : Byte :=
  (memRead (s.cells b) off).getD (Config.unwrittenByte s.epoch b.number off)

/-- `MemRead(b, off, 16)` (R14, R57). -/
def State.loadBlock (s : State) (b : Buffer) (off : Nat) : Block :=
  Vector.ofFn fun i => s.loadByte b (off + i.val)

/-- `MemRead(b, off, 4)` as a column: row 0 is the lowest offset (R14, R54, R57). -/
def State.loadColumn (s : State) (b : Buffer) (off : Nat) : Column :=
  Column.ofFn fun r => s.loadByte b (off + r.val)

/-- `MemWrite(DOUT, off, n, bytes)` (R14, R57). -/
def State.storeOut (s : State) (off : Nat) (bytes : List Byte) : State :=
  { s with dout := memWriteBytes s.dout off bytes }

/-! ### Blocks, matrices and the schedule store -/

/-- Block to matrix, column-major: `S[r][c] = b[r + 4*c]` (R53). -/
def matOfBlock (b : Block) : Mat := Mat.ofFn fun r c => b[r.val + 4 * c.val]

/-- Matrix to block in the same order: byte `i` is row `i mod 4`, column `i div 4` (R53). -/
def blockOfMat (m : Mat) : Block :=
  Vector.ofFn fun i => m.get ⟨i.val % 4, Nat.mod_lt _ (by decide)⟩ ⟨i.val / 4, by omega⟩

/-- `W[c]` (R13). A column numbered 60 or more does not exist and reads as a free value (R22; notes/assumptions/4.md).
DESIGN CHOICE: safe. -/
def schedCol (w : Sched) (c : Nat) : Column := (w[c]?).getD (Config.absentColumn c)

/-- `W[c] <- x` (R14). A write to a column numbered 60 or more stores nothing (notes/assumptions/4.md). -/
def schedSet (w : Sched) (c : Nat) (x : Column) : Sched := w.setIfInBounds c x

/-- Round key `k`: columns `4k` to `4k+3`, as a matrix (R13, R54). -/
def roundKey (w : Sched) (k : Nat) : Mat := Mat.ofFn fun r c => (schedCol w (4 * k + c.val)).get r

/-- The byte of the schedule at linear offset `4*c + r`, which is `W[c][r]` (R39). -/
def schedByte (w : Sched) (off : Nat) : Byte :=
  (schedCol w (off / 4)).get ⟨off % 4, Nat.mod_lt _ (by decide)⟩

/-! ### Free values (notes/assumptions/2.md) -/

/-- Sixteen free bytes from the `n`-th on, as a matrix. DESIGN CHOICE: safe. -/
def freeMat (n : Nat) : Mat := Mat.ofFn fun r c => Config.freeByte (n + (r.val + 4 * c.val))

/-- Sixteen free bytes from the `n`-th on, as a block. DESIGN CHOICE: safe. -/
def freeBlock (n : Nat) : Block := Vector.ofFn fun i => Config.freeByte (n + i.val)

/-- Four free bytes from the `n`-th on, as a column. DESIGN CHOICE: safe. -/
def freeColumn (n : Nat) : Column := Column.ofFn fun r => Config.freeByte (n + r.val)

/-- 240 free bytes from the `n`-th on, as a schedule. DESIGN CHOICE: safe. -/
def freeSched (n : Nat) : Sched :=
  Vector.ofFn fun c => Column.ofFn fun r => Config.freeByte (n + (4 * c.val + r.val))

/-- Four free bits, from the `n`-th free byte. DESIGN CHOICE: safe. -/
def freeNibble (n : Nat) : BitVec 4 := (Config.freeByte n).setWidth 4

/-- S after a command that used it: unspecified (R25, U5; notes/assumptions/10.md). -/
def State.dropMat (s : State) : State := { s with mat := freeMat s.fresh, fresh := s.fresh + 16 }

/-- CV after a command that used it: unspecified (R26, U5; notes/assumptions/10.md). -/
def State.dropChain (s : State) : State := { s with cv := freeBlock s.fresh, fresh := s.fresh + 16 }

/-- W, NK and NR after a bulk command: they hold no value the spec gives, and are not zeroed (R301, U5;
notes/assumptions/10.md). -/
def State.dropSched (s : State) : State :=
  { s with
    w := freeSched s.fresh
    nk := freeNibble (s.fresh + 240)
    nr := freeNibble (s.fresh + 241)
    fresh := s.fresh + 242 }

/-! ### The two ends of a command -/

/-- Issue of a command: BUSY goes to 1 (R29). -/
def State.issue (s : State) : State := { s with busy := true }

/-- Completion with a result of `n` bytes in DOUT: `OLEN <- n`, `ERR <- 0`, BUSY falls (R29, R31). After an error this is
also the return from it: the next completing command overwrites ERR (R260). -/
def State.complete (s : State) (n : Nat) : State := { s with olen := n, err := .none, busy := false }

/-- `raise Error(k)`, the taking of an error: `ERR <- code(k)`, `OLEN <- 0`, `BUSY <- 0`, and nothing else changes
(R256). -/
def State.raiseError (s : State) (k : ErrKind) : State := { s with err := k, olen := 0, busy := false }

end Sys2Proof.Machine
end

