-- ==== Sys2Proof/Machine/Flags.lean ====
section
/-! DEFINITION. The status flags and the words the host reads them in: STATUS and SCHEDINFO, and the flag SV
(spec/10_state.md R24, R29, R32, R34; spec/60_exceptions.md R251). There are no arithmetic condition codes (R34). -/

namespace Sys2Proof.Machine

/-- The code of an error kind in STATUS.ERR (R251). -/
def ErrKind.code : ErrKind → BitVec 3
  | .none => 0
  | .invalidKeyLength => 1
  | .invalidBlockSize => 2
  | .unalignedData => 3
  | .invalidIvSize => 4
  | .corruptPadding => 5

/-- CR1 STATUS: BUSY in bit 0, SV in bit 1, ERR in bits 4:2, bits 7:5 zero (R29). -/
def State.status (s : State) : BitVec 8 :=
  (0 : BitVec 3) ++ s.err.code ++ BitVec.ofBool s.sv ++ BitVec.ofBool s.busy

/-- CR6 SCHEDINFO while SV = 1: NK in bits 3:0, NR in bits 7:4 (R32). -/
def State.schedInfo (s : State) : BitVec 8 := s.nr ++ s.nk

/-- SV set by a completed EXPKEY or cleared by a completed bulk command (R24, R29). -/
def State.setSv (s : State) (b : Bool) : State := { s with sv := b }

end Sys2Proof.Machine
end

