-- ==== Sys2Proof/Machine/Field.lean ====
section
/-! DEFINITION. Byte and GF(2^8) arithmetic (spec/40_field_arithmetic.md R110 to R118): pure functions of their
arguments that read and write no state and no flag. -/

namespace Sys2Proof.Machine

/-- `xor16(x, y)[i] = x[i] ^ y[i]` (R111). -/
def xor16 (x y : Block) : Block := Vector.ofFn fun i => x[i] ^^^ y[i]

/-- Multiplication by two: shift left one bit, drop the bit shifted out, and XOR `0x1b` if that bit was 1 (R112). -/
def xtime (a : Byte) : Byte := (a <<< 1) ^^^ (if a.msb then 0x1b else 0x00)

/-- The loop of `gmul`: `n` iterations left, at bit `i` of the multiplier, with the product `p` and the shifted operand
`t` so far (R113). -/
def gmulLoop (m : Byte) : (n i : Nat) → (p t : Byte) → Byte
  | 0, _, p, _ => p
  | n + 1, i, p, t => gmulLoop m n (i + 1) (if m.getLsbD i then p ^^^ t else p) (xtime t)

/-- Multiplication in GF(2^8): eight iterations whatever the operands are (R113, R116). -/
def gmul (a m : Byte) : Byte := gmulLoop m 8 0 0x00 a

end Sys2Proof.Machine
end

