-- ==== Sys2Proof/Machine/Operands.lean ====
section
/-! DEFINITION. The operands of the operations: which buffer and length register each reads, the length checks, and the range
of ARG (spec/20_memory.md R51, R54, R56; spec/30_encoding.md R84, R86; spec/60_exceptions.md R252 to R255). -/

namespace Sys2Proof.Machine

/-- `KLEN in {16, 24, 32}` (R8, R252). -/
def keyLengthOk (n : Nat) : Bool := n == 16 || n == 24 || n == 32

/-- `DLEN = 16`, the block operand's length (R253). -/
def blockLengthOk (n : Nat) : Bool := n == Config.blockBytes

/-- `DLEN mod 16 = 0`, the bulk operand's length (R254). -/
def bulkLengthOk (n : Nat) : Bool := n % Config.blockBytes == 0

/-- `IVLEN = 16` (R255). -/
def ivLengthOk (n : Nat) : Bool := n == Config.blockBytes

/-- Does a data operand of `n` bytes have byte values in DIN, that is `n <= MAX_DLEN` (R51, U6)? -/
def State.fits (s : State) (n : Nat) : Bool :=
  match s.maxDlen with
  | none => true
  | some cap => decide (n ≤ cap)

/-- The first failing check of a bulk command, in the order key length, data length, and for CBC IV length
(R221, R257, R269). -/
def State.bulkError (s : State) (needsIv : Bool) : Option ErrKind :=
  if !keyLengthOk s.klen then some .invalidKeyLength
  else if !bulkLengthOk s.dlen then some .unalignedData
  else if needsIv && !ivLengthOk s.ivlen then some .invalidIvSize
  else none

/-- Key column `c`: `key[4c..4c+4)` of KEYBUF (R54). -/
def State.keyColumn (s : State) (c : Nat) : Column := s.loadColumn .keybuf (4 * c)

/-- Block `i` of the data operand: `DIN[16i..16i+16)` (R52, R220). -/
def State.dataBlock (s : State) (i : Nat) : Block := s.loadBlock .din (16 * i)

/-- The blocks of a bulk command's data operand: `DLEN div 16` of them (R220). -/
def State.dataBlocks (s : State) : List Block := (List.range (s.dlen / 16)).map s.dataBlock

/-- The IV operand: `IVBUF[0..16)` (R57). -/
def State.ivBlock (s : State) : Block := s.loadBlock .ivbuf 0

/-- Are NK and NR a pair that LDKEY writes: (4,10), (6,12) or (8,14) (R8, R23)? -/
def keySizeOk (nk nr : BitVec 4) : Bool :=
  (nk == 4 && nr == 10) || (nk == 6 && nr == 12) || (nk == 8 && nr == 14)

/-- Is NK one of the three values that R23 gives it, so that KEXPCOL's `c mod NK` and `c div NK` are defined (R117)? -/
def columnCountOk (nk : BitVec 4) : Bool := nk == 4 || nk == 6 || nk == 8

/-- Columns of a schedule of `nr` rounds: `4*(NR+1)` (R8). -/
def usedCols (nr : BitVec 4) : Nat := 4 * (nr.toNat + 1)

/-- KEXPCOL's range: `NK <= c <= 4*(NR+1)-1` (R84). -/
def columnArgOk (nk nr : BitVec 4) (c : Nat) : Bool := decide (nk.toNat ≤ c) && decide (c < usedCols nr)

/-- ADDROUNDKEY's range: `0 <= k <= NR` (R84). -/
def roundArgOk (nr : BitVec 4) (k : Nat) : Bool := decide (k ≤ nr.toNat)

end Sys2Proof.Machine
end

