-- ==== Sys2Proof/Machine/Transforms.lean ====
section
/-! DEFINITION. The round transforms: state load and store, S-box, ShiftRows, MixColumns, AddRoundKey
(spec/42_round_transforms.md). Each transform is a function of the whole old matrix (R178, U12); each unit operation
applies one to S, writes no flag and raises no error. -/

namespace Sys2Proof.Machine

/-- Every byte through the forward S-box (R164). -/
def subBytes (m : Mat) : Mat := Mat.ofFn fun r c => sbox (m.get r c)

/-- Every byte through the inverse S-box (R166). -/
def invSubBytes (m : Mat) : Mat := Mat.ofFn fun r c => invSbox (m.get r c)

/-- Row `r` rotated left by `r`: `S'[r][c] = S[r][(c + r) mod 4]`, the sum in `Fin 4` being the sum modulo 4 (R167). -/
def shiftRows (m : Mat) : Mat := Mat.ofFn fun r c => m.get r (c + r)

/-- Row `r` rotated right by `r`: `S'[r][c] = S[r][(c - r) mod 4]` (R168). -/
def invShiftRows (m : Mat) : Mat := Mat.ofFn fun r c => m.get r (c - r)

/-- Every column multiplied from the left by the matrix `x` under GF(2^8) (R171, R174). -/
def mixWith (x m : Mat) : Mat := Mat.ofFn fun i c =>
  gmul (m.get 0 c) (x.get i 0) ^^^ gmul (m.get 1 c) (x.get i 1) ^^^ gmul (m.get 2 c) (x.get i 2) ^^^
    gmul (m.get 3 c) (x.get i 3)

/-- MixColumns: the product with `MIX` (R171). -/
def mixColumns (m : Mat) : Mat := mixWith mix m

/-- InvMixColumns: the product with `INV_MIX` (R174). -/
def invMixColumns (m : Mat) : Mat := mixWith invMix m

/-- AddRoundKey: `S[r][c] ^ W[4k + c][r]` (R176). -/
def addRoundKey (w : Sched) (k : Nat) (m : Mat) : Mat := Mat.ofFn fun r c => m.get r c ^^^ (roundKey w k).get r c

/-! ### The unit operations -/

/-- A transform of S as a unit operation: all of S is written, nothing else (R178). -/
def State.onMat (s : State) (f : Mat → Mat) : State := { s with mat := f s.mat }

/-- LDSTATE (R160). The operand `b` stands in `blkIn` (notes/assumptions/9.md). -/
def execLdstate (s : State) : Host.Outcome State Fault Refusal := .next { s with mat := matOfBlock s.blkIn }

/-- STSTATE (R161). The result `o` is handed back in `blkOut` (notes/assumptions/9.md). -/
def execStstate (s : State) : Host.Outcome State Fault Refusal := .next { s with blkOut := blockOfMat s.mat }

/-- SUBBYTES (R164). -/
def execSubbytes (s : State) : Host.Outcome State Fault Refusal := .next (s.onMat subBytes)

/-- INVSUBBYTES (R166). -/
def execInvsubbytes (s : State) : Host.Outcome State Fault Refusal := .next (s.onMat invSubBytes)

/-- SHIFTROWS (R167). -/
def execShiftrows (s : State) : Host.Outcome State Fault Refusal := .next (s.onMat shiftRows)

/-- INVSHIFTROWS (R168). -/
def execInvshiftrows (s : State) : Host.Outcome State Fault Refusal := .next (s.onMat invShiftRows)

/-- MIXCOLUMNS (R171). -/
def execMixcolumns (s : State) : Host.Outcome State Fault Refusal := .next (s.onMat mixColumns)

/-- INVMIXCOLUMNS (R174). -/
def execInvmixcolumns (s : State) : Host.Outcome State Fault Refusal := .next (s.onMat invMixColumns)

/-- ADDROUNDKEY k (R176); an ARG outside the range of R84 is refused (R88, U8). With NR = 15, which only a free value
can be, round key 15 is free (notes/assumptions/4.md). -/
def execAddroundkey (k : BitVec 8) (s : State) : Host.Outcome State Fault Refusal :=
  if roundArgOk s.nr k.toNat then .next (s.onMat (addRoundKey s.w k.toNat)) else .refused (.argOutOfRange k)

end Sys2Proof.Machine
end

