-- ==== Sys2Proof/Machine/BlockCipher.lean ====
section
/-! DEFINITION. The round encoder and decoder: `enc_block`, `dec_block` and the commands ENCBLK and DECBLK
(spec/43_block_cipher.md). -/

namespace Sys2Proof.Machine

/-- A full forward round: `SUBBYTES ; SHIFTROWS ; MIXCOLUMNS ; ADDROUNDKEY k` (R201). -/
def encRound (w : Sched) (m : Mat) (k : Nat) : Mat := addRoundKey w k (mixColumns (shiftRows (subBytes m)))

/-- A full inverse round: `ADDROUNDKEY k ; INVMIXCOLUMNS ; INVSHIFTROWS ; INVSUBBYTES` (R202). -/
def decRound (w : Sched) (m : Mat) (k : Nat) : Mat := invSubBytes (invShiftRows (invMixColumns (addRoundKey w k m)))

/-- `enc_block(b)`: it reads W and NR and uses S as a local variable (R201, R204, R25). The full rounds are `k` in
`1 .. NR-1`, ascending. -/
def encBlock (w : Sched) (nr : Nat) (b : Block) : Block :=
  let start := addRoundKey w 0 (matOfBlock b)
  let full := (List.range' 1 (nr - 1)).foldl (encRound w) start
  blockOfMat (addRoundKey w nr (shiftRows (subBytes full)))

/-- `dec_block(b)`: the full rounds are `k` in `NR-1 downto 1` (R202). -/
def decBlock (w : Sched) (nr : Nat) (b : Block) : Block :=
  let start := invSubBytes (invShiftRows (addRoundKey w nr (matOfBlock b)))
  let full := (List.range' 1 (nr - 1)).reverse.foldl (decRound w) start
  blockOfMat (addRoundKey w 0 full)

/-- A block command with the block function `f`: refused without a schedule, then the length check, then sixteen bytes
from DIN to DOUT (R201, R202, R203). S is left unspecified (R25; notes/assumptions/10.md). -/
def State.blockCommand (f : Sched → Nat → Block → Block) (s : State) : Host.Outcome State Fault Refusal :=
  if !s.sv then .refused .noSchedule
  else if !blockLengthOk s.dlen then .next (s.raiseError .invalidBlockSize)
  else .next (((s.storeOut 0 (f s.w s.nr.toNat (s.dataBlock 0)).toList).dropMat).complete Config.blockBytes)

/-- ENCBLK (R201). -/
def execEncblk (s : State) : Host.Outcome State Fault Refusal := s.blockCommand encBlock

/-- DECBLK (R202). -/
def execDecblk (s : State) : Host.Outcome State Fault Refusal := s.blockCommand decBlock

end Sys2Proof.Machine
end

