-- ==== Sys2Proof/Machine/KeyExpander.lean ====
section
/-! DEFINITION. The key expander: the column functions, LDKEY, KEXPCOL and the command EXPKEY
(spec/41_key_schedule.md). -/

namespace Sys2Proof.Machine

/-- `rot_word(x) = (x[1], x[2], x[3], x[0])` (R130). -/
def rotWord (x : Column) : Column := ⟨x.r1, x.r2, x.r3, x.r0⟩

/-- `sub_word(x)`: the forward S-box on each byte (R131). -/
def subWord (x : Column) : Column := Column.ofFn fun r => sbox (x.get r)

/-- Exclusive OR of two columns, row by row (R111). -/
def xorColumn (x y : Column) : Column := Column.ofFn fun r => x.get r ^^^ y.get r

/-- The ten round constants (R132). -/
def rconTable : List Byte := [0x01, 0x02, 0x04, 0x08, 0x10, 0x20, 0x40, 0x80, 0x1b, 0x36]

/-- `rcon(n)`; above 9 the spec defines no value and no command asks for one (R132, U7; notes/assumptions/4.md).
DESIGN CHOICE: a free value there, safe. -/
def rcon (n : Nat) : Byte := (rconTable[n]?).getD (Config.rconBeyond n)

/-- The column KEXPCOL c computes: its three cases in the order of R135. -/
def nextColumn (w : Sched) (nk c : Nat) : Column :=
  let prev := schedCol w (c - 1)
  let t :=
    if c % nk = 0 then xorColumn (subWord (rotWord prev)) ⟨rcon (c / nk - 1), 0, 0, 0⟩
    else if 6 < nk ∧ c % nk = 4 then subWord prev
    else prev
  xorColumn (schedCol w (c - nk)) t

/-- `W[c] <- nextColumn` (R135). -/
def expandColumn (nk : Nat) (w : Sched) (c : Nat) : Sched := schedSet w c (nextColumn w nk c)

/-- KEXPCOL's write: `W[c]` by R135. Where NK is none of 4, 6 and 8 (a free value, after a bulk command or a reset) the spec
states no result, and `W[c]` takes a free value. DESIGN CHOICE: safe (notes/assumptions/20.md). -/
def State.deriveColumn (s : State) (c : Nat) : State :=
  { s with
    w := schedSet s.w c (if columnCountOk s.nk then nextColumn s.w s.nk.toNat c else freeColumn s.fresh)
    fresh := if columnCountOk s.nk then s.fresh else s.fresh + 4 }

/-- KEXPCOL for `c` in `NK .. 4*(NR+1)-1`, ascending (R137). -/
def expandColumns (nk nr : BitVec 4) (w : Sched) : Sched :=
  (List.range' nk.toNat (usedCols nr - nk.toNat)).foldl (expandColumn nk.toNat) w

/-- LDKEY's writes: NK, NR and the first NK columns of W; every other column is left as it was (R133). -/
def State.loadKey (s : State) : State :=
  { s with
    nk := BitVec.ofNat 4 (s.klen / 4)
    nr := BitVec.ofNat 4 (s.klen / 4 + 6)
    w := (List.range (s.klen / 4)).foldl (fun w c => schedSet w c (s.keyColumn c)) s.w }

/-- The expansion of the key in KEYBUF into W, NK and NR: LDKEY and then every KEXPCOL (R92, R137, R221). -/
def State.expandKey (s : State) : State :=
  let k := s.loadKey
  { k with w := expandColumns k.nk k.nr k.w }

/-- LDKEY (R133). The rule gives it KLEN 16, 24 and 32 only, which the sequencer has checked; another KLEN is refused (R8:
"rejected before use"; notes/assumptions/11.md). -/
def execLdkey (s : State) : Host.Outcome State Fault Refusal :=
  if keyLengthOk s.klen then .next s.loadKey else .refused .keyLengthUnchecked

/-- KEXPCOL c (R135); refused outside the range of R84 (R88, U8). -/
def execKexpcol (c : BitVec 8) (s : State) : Host.Outcome State Fault Refusal :=
  if columnArgOk s.nk s.nr c.toNat then .next (s.deriveColumn c.toNat) else .refused (.argOutOfRange c)

/-- EXPKEY (R137). -/
def execExpkey (s : State) : Host.Outcome State Fault Refusal :=
  if keyLengthOk s.klen then .next ((s.expandKey.setSv true).complete 0)
  else .next (s.raiseError .invalidKeyLength)

end Sys2Proof.Machine
end

