-- ==== Sys2Proof/Machine/Chaining.lean ====
section
/-! DEFINITION. The ECB/CBC mode controller: ENCECB, DECECB, ENCCBC and DECCBC (spec/44_chaining_modes.md). -/

namespace Sys2Proof.Machine

/-- ECB: each block by itself, in order (R222, R224). -/
def ecbBlocks (f : Block → Block) (x : List Block) : List Block := x.map f

/-- CBC encryption: XOR with the chain value, encrypt, and chain the ciphertext just produced (R226, R227). -/
def cbcEncBlocks (f : Block → Block) : (cv : Block) → List Block → List Block
  | _, [] => []
  | cv, p :: rest =>
    let c := f (xor16 p cv)
    c :: cbcEncBlocks f c rest

/-- CBC decryption: decrypt, XOR with the chain value, and chain the ciphertext just consumed (R228, R229). -/
def cbcDecBlocks (f : Block → Block) : (cv : Block) → List Block → List Block
  | _, [] => []
  | cv, c :: rest => xor16 (f c) cv :: cbcDecBlocks f c rest

/-- Blocks one after the other as a byte sequence: block `i` at offsets `16i` to `16i+15` (R52, R60). -/
def blocksBytes (x : List Block) : List Byte := x.flatMap Vector.toList

/-- The end of a completing bulk command: SV falls, `OLEN <- DLEN`, `ERR <- 0` (R221, `bulk_epilogue`). The schedule is
discarded, so W, NK and NR hold no value, nor does S, nor CV after a CBC command (R25, R26, R301;
notes/assumptions/10.md). -/
def State.bulkEpilogue (s : State) (cbc : Bool) : State :=
  let s := s.dropSched.dropMat
  ((if cbc then s.dropChain else s).setSv false).complete s.dlen

/-- A bulk command's five phases (R221). `f` gives the output blocks from the schedule, the number of rounds, the IV and
the input blocks; ECB does not use the IV. A data operand above MAX_DLEN is refused before the checks (R51, U6;
notes/assumptions/7.md). -/
def State.bulkCommand (cbc : Bool) (f : Sched → Nat → Block → List Block → List Block) (s : State) :
    Host.Outcome State Fault Refusal :=
  if !s.fits s.dlen then .refused .overCapacity
  else match s.bulkError cbc with
    | some k => .next (s.raiseError k)
    | none =>
      let e := s.expandKey
      .next ((e.storeOut 0 (blocksBytes (f e.w e.nr.toNat s.ivBlock s.dataBlocks))).bulkEpilogue cbc)

/-- ENCECB (R222). -/
def execEncecb (s : State) : Host.Outcome State Fault Refusal :=
  s.bulkCommand false fun w nr _ x => ecbBlocks (encBlock w nr) x

/-- DECECB (R224). -/
def execDececb (s : State) : Host.Outcome State Fault Refusal :=
  s.bulkCommand false fun w nr _ x => ecbBlocks (decBlock w nr) x

/-- ENCCBC (R226). -/
def execEnccbc (s : State) : Host.Outcome State Fault Refusal :=
  s.bulkCommand true fun w nr iv x => cbcEncBlocks (encBlock w nr) iv x

/-- DECCBC (R228). -/
def execDeccbc (s : State) : Host.Outcome State Fault Refusal :=
  s.bulkCommand true fun w nr iv x => cbcDecBlocks (decBlock w nr) iv x

end Sys2Proof.Machine
end

