-- ==== Sys2Proof/Machine/Dispatch.lean ====
section
/-! DEFINITION. The dispatch: one arm for each operation (spec/30_encoding.md R83, R85). -/

namespace Sys2Proof.Machine

/-- The meaning of an operation. -/
def exec (i : Instr) (s : State) : Host.Outcome State Fault Refusal :=
  match i with
  | .expkey => Sys2Proof.Machine.execExpkey s
  | .encblk => Sys2Proof.Machine.execEncblk s
  | .decblk => Sys2Proof.Machine.execDecblk s
  | .encecb => Sys2Proof.Machine.execEncecb s
  | .dececb => Sys2Proof.Machine.execDececb s
  | .enccbc => Sys2Proof.Machine.execEnccbc s
  | .deccbc => Sys2Proof.Machine.execDeccbc s
  | .ldkey => Sys2Proof.Machine.execLdkey s
  | .kexpcol c => Sys2Proof.Machine.execKexpcol c s
  | .ldstate => Sys2Proof.Machine.execLdstate s
  | .ststate => Sys2Proof.Machine.execStstate s
  | .subbytes => Sys2Proof.Machine.execSubbytes s
  | .invsubbytes => Sys2Proof.Machine.execInvsubbytes s
  | .shiftrows => Sys2Proof.Machine.execShiftrows s
  | .invshiftrows => Sys2Proof.Machine.execInvshiftrows s
  | .mixcolumns => Sys2Proof.Machine.execMixcolumns s
  | .invmixcolumns => Sys2Proof.Machine.execInvmixcolumns s
  | .addroundkey k => Sys2Proof.Machine.execAddroundkey k s

end Sys2Proof.Machine
end

