-- ==== Sys2Proof/Machine/HostPort.lean ====
section
/-! DEFINITION. The host port and the order of events: register and buffer accesses of the host, the platform's reset, the
issue of command words, and the unit-operation bus (spec/10_state.md R27 to R32, R39; spec/20_memory.md R50, R62;
spec/70_reset_and_hazards.md R290, R291, R296). `Step.lean` only calls `stepWith`. -/

namespace Sys2Proof.Machine

/-! ### Host access to registers and buffers -/

/-- A host write to a length register; a write to a read-only register is ignored (R27, U9). A write to CMD is no storage:
`hostMove` issues the word (R28). -/
def State.writeReg (s : State) : CReg → Nat → State
  | .klen, v => { s with klen := v }
  | .dlen, v => { s with dlen := v }
  | .ivlen, v => { s with ivlen := v }
  | .cmd, _ => s
  | .status, _ => s
  | .olen, _ => s
  | .schedinfo, _ => s

/-- The host receives the value `v`, for which `n` free bytes were drawn. -/
def State.answer (s : State) (v n : Nat) : State := { s with rdata := v, fresh := s.fresh + n }

/-- A host read of a register (R27). CMD, and SCHEDINFO with SV = 0, give an unspecified value (R27, R32, U4;
notes/assumptions/13.md). -/
def State.readReg (s : State) : CReg → State
  | .cmd => s.answer ((Config.freeByte s.fresh).toNat + 256 * (Config.freeByte (s.fresh + 1)).toNat) 2
  | .status => s.answer s.status.toNat 0
  | .klen => s.answer s.klen 0
  | .dlen => s.answer s.dlen 0
  | .ivlen => s.answer s.ivlen 0
  | .olen => s.answer s.olen 0
  | .schedinfo => if s.sv then s.answer s.schedInfo.toNat 0 else s.answer (Config.freeByte s.fresh).toNat 1

/-- The capacity of a space in bytes; `none` is unbounded (R50, D4). -/
def State.capacity (s : State) : Space → Option Nat
  | .buffer .keybuf => some 32
  | .buffer .din => s.maxDlen
  | .buffer .ivbuf => some 16
  | .buffer .dout => s.maxDlen
  | .sched => some 240

/-- Does the space have this offset (R50)? -/
def State.hasOffset (s : State) (x : Space) (off : Nat) : Bool :=
  match s.capacity x with
  | none => true
  | some n => decide (off < n)

/-- A host write of one byte: KEYBUF, DIN and IVBUF take it, DOUT and SCHED ignore it (R39, R50, U9). -/
def State.writeByte (s : State) : Space → Nat → Byte → State
  | .buffer .keybuf, off, v => { s with keybuf := memWrite s.keybuf off v }
  | .buffer .din, off, v => { s with din := memWrite s.din off v }
  | .buffer .ivbuf, off, v => { s with ivbuf := memWrite s.ivbuf off v }
  | .buffer .dout, _, _ => s
  | .sched, _, _ => s

/-- A host read of one byte. DOUT at or above OLEN, SCHED from `16*(NR+1)` on, and all of SCHED with SV = 0 give any value
(R39, R50, U4; notes/assumptions/13.md). -/
def State.readByte (s : State) : Space → Nat → State
  | .buffer .dout, off =>
    if off < s.olen then s.answer (s.loadByte .dout off).toNat 0 else s.answer (Config.freeByte s.fresh).toNat 1
  | .buffer b, off => s.answer (s.loadByte b off).toNat 0
  | .sched, off =>
    if s.sv && decide (off < 4 * usedCols s.nr) then s.answer (schedByte s.w off).toNat 0
    else s.answer (Config.freeByte s.fresh).toNat 1

/-! ### Directives of a command stream (R89) -/

/-- A buffer of the capacity `cap` that holds a byte sequence from offset 0 on, over what stood there. Bytes beyond the
capacity have no place and are dropped (R50). DESIGN CHOICE: the spec does not say what a directive does with them
(notes/assumptions/21.md). -/
def memFill (cap : Option Nat) (m : Mem) (bytes : List Byte) : Mem :=
  memWriteBytes m 0 (match cap with
    | none => bytes
    | some n => bytes.take n)

/-- `.key <hex>`: KEYBUF and KLEN (R89). KLEN is the number of bytes given, also of a key that KEYBUF cannot hold; the bytes
from the 33rd on are dropped. DESIGN CHOICE: the spec is silent on them (notes/assumptions/21.md). -/
def State.setKey (s : State) (bytes : List Byte) : State :=
  { s with keybuf := memFill (s.capacity (.buffer .keybuf)) s.keybuf bytes, klen := bytes.length }

/-- `.din <hex>`: DIN and DLEN (R89). DLEN is the number of bytes given; those beyond MAX_DLEN are dropped. DESIGN CHOICE: the
spec is silent on them (notes/assumptions/21.md). -/
def State.setDin (s : State) (bytes : List Byte) : State :=
  { s with din := memFill (s.capacity (.buffer .din)) s.din bytes, dlen := bytes.length }

/-- `.iv <hex>`: IVBUF and IVLEN (R89). IVLEN is the number of bytes given; those from the 17th on are dropped. DESIGN CHOICE:
the spec is silent on them (notes/assumptions/21.md). -/
def State.setIv (s : State) (bytes : List Byte) : State :=
  { s with ivbuf := memFill (s.capacity (.buffer .ivbuf)) s.ivbuf bytes, ivlen := bytes.length }

/-- `DOUT[0..OLEN)`, the result the host reads (R90, R293). -/
def State.result (s : State) : List Byte := (List.range s.olen).map (s.loadByte .dout)

/-! ### Reset -/

/-- The reset transition, from any state to the reset state: what R37 gives, and free values for what it leaves
unspecified; a command in progress is abandoned (R290, R291; notes/assumptions/14.md). The parameter MAX_DLEN, the host's
later moves and the bytes the host has already read are no state of the block and stay. -/
def State.platformReset (s : State) : State :=
  { State.reset with
    w := freeSched s.fresh
    nk := freeNibble (s.fresh + 240)
    nr := freeNibble (s.fresh + 241)
    mat := freeMat (s.fresh + 242)
    cv := freeBlock (s.fresh + 258)
    blkIn := s.blkIn
    blkOut := s.blkOut
    maxDlen := s.maxDlen
    host := s.host
    rdata := s.rdata
    fresh := s.fresh + 274
    epoch := s.epoch + 1 }

/-! ### One step -/

/-- Host moves that R62 and R296 forbid while BUSY = 1: writes of CMD, the input buffers and the length registers, and
reads of DOUT, OLEN, SCHED and SCHEDINFO (U3; notes/assumptions/16.md). -/
def HostMove.needsIdle : HostMove → Bool
  | .writeReg .cmd _ => true
  | .writeReg .klen _ => true
  | .writeReg .dlen _ => true
  | .writeReg .ivlen _ => true
  | .writeReg .status _ => false
  | .writeReg .olen _ => false
  | .writeReg .schedinfo _ => false
  | .readReg .olen => true
  | .readReg .schedinfo => true
  | .readReg .cmd => false
  | .readReg .status => false
  | .readReg .klen => false
  | .readReg .dlen => false
  | .readReg .ivlen => false
  | .writeByte (.buffer .keybuf) _ _ => true
  | .writeByte (.buffer .din) _ _ => true
  | .writeByte (.buffer .ivbuf) _ _ => true
  | .writeByte (.buffer .dout) _ _ => false
  | .writeByte .sched _ _ => false
  | .readByte (.buffer .dout) _ => true
  | .readByte .sched _ => true
  | .readByte (.buffer .keybuf) _ => false
  | .readByte (.buffer .din) _ => false
  | .readByte (.buffer .ivbuf) _ => false
  | .reset => false

/-- A write of a word to CMD: the word is decoded and the command runs with BUSY = 1 to its end; a reserved word is refused
(R28, R29, R87, R88). `run` is the meaning of an operation. -/
def State.issueWord (run : Instr → State → Host.Outcome State Fault Refusal) (cw : Word) (s : State) :
    Host.Outcome State Fault Refusal :=
  match decodeCmd cw with
  | .ok i => run i s.issue
  | .error why => .refused (.reservedWord cw why)

/-- A word on the unit-operation bus (R82, R87, R88). -/
def State.issueUnit (run : Instr → State → Host.Outcome State Fault Refusal) (cw : Word) (s : State) :
    Host.Outcome State Fault Refusal :=
  match decodeBus cw with
  | .ok i => run i s
  | .error why => .refused (.reservedWord cw why)

/-- One host move that BUSY does not forbid. CMD is 16 bits wide and takes the low bits of the value written (R27;
notes/assumptions/16.md). -/
def State.hostMove (run : Instr → State → Host.Outcome State Fault Refusal) (s : State) :
    HostMove → Host.Outcome State Fault Refusal
  | .reset => .next s.platformReset
  | .writeReg .cmd v => s.issueWord run (BitVec.ofNat 16 v)
  | .writeReg r v => .next (s.writeReg r v)
  | .readReg r => .next (s.readReg r)
  | .writeByte x off v => if s.hasOffset x off then .next (s.writeByte x off v) else .fault (.noSuchOffset x off)
  | .readByte x off => if s.hasOffset x off then .next (s.readByte x off) else .fault (.noSuchOffset x off)

/-- One step of the machine: a reset that has arrived; else the next word on the unit-operation bus; else the host's next
move; else nothing, the engine being idle (R20, R290, R291; notes/assumptions/1.md, notes/assumptions/8.md). -/
def stepWith (run : Instr → State → Host.Outcome State Fault Refusal) (s : State) : Host.Outcome State Fault Refusal :=
  match s.host, s.seq with
  | .reset :: rest, _ => .next { s with host := rest }.platformReset
  | _, cw :: more => { s with seq := more }.issueUnit run cw
  | m :: rest, [] =>
    if s.busy && m.needsIdle then .refused .hostWhileBusy else { s with host := rest }.hostMove run m
  | [], [] => .next s

/-- The state in which the next step runs the word `cw`: a format H word as the host's next write to CMD with the bus empty
and the engine idle, a format U word as the next word on the unit-operation bus with no reset waiting
(notes/assumptions/12.md). -/
def State.withNextWord (s : State) (cw : Word) : State :=
  if wordClass cw then { s with seq := cw :: s.seq, host := s.host.dropWhile (· == .reset) }
  else { s with busy := false, seq := [], host := .writeReg .cmd cw.toNat :: s.host }

end Sys2Proof.Machine
end

