-- ==== Sys2Proof/Machine/HostSide.lean ====
section
/-! DEFINITION. Host software around the core: padding and the CBC framing (spec/80_host_interface.md R321 to R323). None of
it is part of the hardware (R4) and the machine uses none of it (notes/assumptions/18.md). -/

namespace Sys2Proof.Machine

/-- How many bytes PAD appends: `16 - (len mod 16)`, 1 to 16 (R321). -/
def padCount (x : List Byte) : Nat := 16 - x.length % 16

/-- `pad(x)`: append `n` bytes each holding `n` (R321). -/
def pad (x : List Byte) : List Byte := x ++ List.replicate (padCount x) (BitVec.ofNat 8 (padCount x))

/-- What UNPAD gives. -/
inductive Unpadded where
  /-- The data without its padding. -/
  | data (x : List Byte)
  /-- The error CorruptPadding. -/
  | corruptPadding
  /-- The empty buffer, of which the spec says nothing (R322, U15). -/
  | noLastByte
deriving DecidableEq, Repr

/-- `unpad(y)`: read the last byte as the count `n`; it must not be 0 nor exceed the length, and the last `n` bytes must all
hold it (R322). The source does not bound `n` by 16. -/
def unpad (y : List Byte) : Unpadded :=
  match y.getLast? with
  | none => .noLastByte
  | some v =>
    let n := v.toNat
    if n == 0 || decide (y.length < n) || (y.drop (y.length - n)).any (· != v) then .corruptPadding
    else .data (y.take (y.length - n))

/-- The stored form of a CBC ciphertext: the IV, then the blocks (R323). -/
def frameCbc (iv : Block) (ct : List Byte) : List Byte := iv.toList ++ ct

/-- The IV bytes and the ciphertext of a stored CBC form; a form shorter than 16 bytes has no meaning (R323, U15). -/
def unframeCbc (y : List Byte) : Option (List Byte × List Byte) :=
  if y.length < 16 then none else some (y.take 16, y.drop 16)

end Sys2Proof.Machine
end

