-- ==== Sys2Proof/Machine/Expansion.lean ====
section
/-! DEFINITION. The commands as sequences of unit operations (spec/30_encoding.md R92) and as the words their sequencers put
on the unit-operation bus. The commands' own meanings do not use it; it lets a command's content be run word by word
(notes/assumptions/8.md). -/

namespace Sys2Proof.Machine

/-- EXPKEY: `LDKEY`, then `KEXPCOL c` for `c` in `NK .. 4*(NR+1)-1` (R92). -/
def expkeyUnits (nk nr : BitVec 4) : List Instr :=
  .ldkey :: (List.range' nk.toNat (usedCols nr - nk.toNat)).map fun c => .kexpcol (BitVec.ofNat 8 c)

/-- ENCBLK (R92). -/
def encblkUnits (nr : Nat) : List Instr :=
  [.ldstate, .addroundkey 0] ++
  (List.range' 1 (nr - 1)).flatMap (fun k => [.subbytes, .shiftrows, .mixcolumns, .addroundkey (BitVec.ofNat 8 k)]) ++
  [.subbytes, .shiftrows, .addroundkey (BitVec.ofNat 8 nr), .ststate]

/-- DECBLK (R92). -/
def decblkUnits (nr : Nat) : List Instr :=
  [.ldstate, .addroundkey (BitVec.ofNat 8 nr), .invshiftrows, .invsubbytes] ++
  (List.range' 1 (nr - 1)).reverse.flatMap
    (fun k => [.addroundkey (BitVec.ofNat 8 k), .invmixcolumns, .invshiftrows, .invsubbytes]) ++
  [.addroundkey 0, .ststate]

/-- The state in which the words of these unit operations stand on the bus, no host move waits, and `b` is LDSTATE's
operand. -/
def State.withUnits (s : State) (ops : List Instr) (b : Block) : State :=
  { s with seq := ops.map encode, host := [], blkIn := b }

end Sys2Proof.Machine
end

