-- ==== Sys2Proof/Safety.lean ====
section
/-! DEFINITION. What counts as a good state, and the terms the statements use: which bytes two states share, and the outcome
classes of a command (spec/00_scope.md R6). -/

namespace Sys2Proof.Machine

/-- Every listed offset of a buffer is one the buffer has; `none` is an unbounded capacity (R50). -/
def memBelow (m : Mem) (cap : Option Nat) : Bool :=
  match cap with
  | none => true
  | some n => m.all fun cell => decide (cell.1 < n)

/-- The invariant of the core. -/
structure Inv (s : State) : Prop where
  /-- No state of a run has BUSY = 1 (R29). -/
  idle : s.busy = false
  /-- The core never reports CorruptPadding (R251, R261). -/
  coreErr : s.err ≠ .corruptPadding
  /-- NK and NR are a legal pair when SV = 1 (R23). -/
  keySize : s.sv = true → keySizeOk s.nk s.nr = true
  /-- MAX_DLEN, where there is one, is a multiple of 16 and at least 16 (D2). -/
  capacity : ∀ n, s.maxDlen = some n → 16 ≤ n ∧ n % 16 = 0
  /-- The buffers keep their canonical form. -/
  keybufWf : memWf s.keybuf = true
  dinWf : memWf s.din = true
  ivbufWf : memWf s.ivbuf = true
  doutWf : memWf s.dout = true
  /-- The buffers hold nothing at an offset they do not have (R50). -/
  keybufBelow : memBelow s.keybuf (some 32) = true
  dinBelow : memBelow s.din s.maxDlen = true
  ivbufBelow : memBelow s.ivbuf (some 16) = true
  doutBelow : memBelow s.dout s.maxDlen = true
  /-- Every byte of the result `DOUT[0..OLEN)` has been written (R31). -/
  result : ∀ off, off < s.olen → (memRead s.dout off).isSome = true
  /-- The result fits DOUT (R50). -/
  resultFits : s.fits s.olen = true

/-- Every byte of every buffer reads in `t` as in `s`. -/
def SameBuffers (s t : State) : Prop := ∀ b off, t.loadByte b off = s.loadByte b off

/-- Every byte of every buffer but `DOUT[0..n)` reads in `t` as in `s`. -/
def SameButResult (n : Nat) (s t : State) : Prop :=
  ∀ b off, (b = .dout → n ≤ off) → t.loadByte b off = s.loadByte b off

/-- Output block `i`: `DOUT[16i..16i+16)`. -/
def State.outBlock (s : State) (i : Nat) : Block := s.loadBlock .dout (16 * i)

/-- The operand checks of a bulk command all pass: the data fits, and no error kind's precondition is violated
(R221, R252, R254, R255). -/
def BulkOperandsOk (cbc : Bool) (s : State) : Prop :=
  s.fits s.dlen = true ∧ (s.klen = 16 ∨ s.klen = 24 ∨ s.klen = 32) ∧ s.dlen % 16 = 0 ∧ (cbc = true → s.ivlen = 16)

/-- The fields a completing bulk command leaves as they were: all but W, NK, NR, SV, S, DOUT, OLEN, ERR, BUSY, the free-byte
count, and CV of a CBC command (R40, R221). -/
def BulkFrame (cbc : Bool) (s t : State) : Prop :=
  t = { s with
    w := t.w, nk := t.nk, nr := t.nr, mat := t.mat, dout := t.dout, fresh := t.fresh
    cv := if cbc then t.cv else s.cv
    sv := false, olen := s.dlen, err := .none, busy := false }
  ∧ SameButResult s.dlen s t

/-- The rule for a derived schedule column `c` under key size `nk`: its three cases (R135). -/
def ColumnRule (w : Sched) (nk c : Nat) : Prop :=
  (c % nk = 0 → schedCol w c = xorColumn (schedCol w (c - nk))
    (xorColumn (subWord (rotWord (schedCol w (c - 1)))) ⟨rcon (c / nk - 1), 0, 0, 0⟩)) ∧
  (c % nk ≠ 0 → 6 < nk ∧ c % nk = 4 → schedCol w c = xorColumn (schedCol w (c - nk)) (subWord (schedCol w (c - 1)))) ∧
  (c % nk ≠ 0 → ¬ (6 < nk ∧ c % nk = 4) → schedCol w c = xorColumn (schedCol w (c - nk)) (schedCol w (c - 1)))

/-- W, NK and NR hold the schedule of the key in `s`'s KEYBUF: the key's columns (R133) and then the derived ones
(R135, R137). -/
def HoldsSchedule (s t : State) : Prop :=
  t.nk.toNat = s.klen / 4 ∧ t.nr.toNat = s.klen / 4 + 6 ∧
  (∀ c (r : Fin 4), c < s.klen / 4 → (schedCol t.w c).get r = s.loadByte .keybuf (4 * c + r.val)) ∧
  (∀ c, s.klen / 4 ≤ c → c < 4 * (s.klen / 4 + 7) → ColumnRule t.w (s.klen / 4) c)

/-- Two states offer a bulk command the same operands: the lengths, the key bytes, the data bytes, and for CBC the IV bytes
(R51, R59). -/
def SameBulkOperands (cbc : Bool) (s u : State) : Prop :=
  s.klen = u.klen ∧ s.dlen = u.dlen ∧ s.maxDlen = u.maxDlen ∧ (cbc = true → s.ivlen = u.ivlen) ∧
  (∀ off, off < s.klen → s.loadByte .keybuf off = u.loadByte .keybuf off) ∧
  (∀ off, off < s.dlen → s.loadByte .din off = u.loadByte .din off) ∧
  (cbc = true → ∀ off, off < s.ivlen → s.loadByte .ivbuf off = u.loadByte .ivbuf off)

/-- The same outcome as far as the host can see it: ERR, OLEN and the result `DOUT[0..OLEN)` (R59, R293). -/
def SameAnswer (s t : State) : Prop :=
  s.err = t.err ∧ s.olen = t.olen ∧ ∀ off, off < s.olen → s.loadByte .dout off = t.loadByte .dout off

end Sys2Proof.Machine
end

