-- ==== Sys2Proof/WellFormed.lean ====
section
/-! DEFINITION. When an operation is well formed: its ARG is one that some key length admits (spec/30_encoding.md R84 with
the columns and rounds of spec/00_scope.md R8). The check against NK and NR themselves is the machine's. -/

namespace Sys2Proof

/-- ARG as R84 admits it for at least one key length: KEXPCOL columns 4 to 59 (`NK <= c <= 4*(NR+1)-1`), ADDROUNDKEY
rounds 0 to 14 (`0 <= k <= NR`). -/
def WellFormed : Instr → Bool
  | .kexpcol c => decide (4 ≤ c.toNat) && decide (c.toNat ≤ 59)
  | .addroundkey k => decide (k.toNat ≤ 14)
  | .expkey | .encblk | .decblk | .encecb | .dececb | .enccbc | .deccbc | .ldkey | .ldstate | .ststate | .subbytes
  | .invsubbytes | .shiftrows | .invshiftrows | .mixcolumns | .invmixcolumns => true

end Sys2Proof
end

