-- ==== Sys2Proof/Certificates/Slice0/Obligations.lean ====
section
/-! DEFINITION. The statements for the provers, each a proposition about the machine. A docstring names the rule of spec/ that
the statement formalises or the sections it rests on. -/

section
open Sys2Proof Sys2Proof.Machine

/-! ### Words -/

/-- Decoding and encoding agree both ways, and each word decodes on the port of its class only (R80 to R88). -/
def Obligations.EncodingRoundTripsBothWays : Prop :=
  (∀ i, decodeWord (encode i) = .ok i) ∧
  (∀ cw i, decodeWord cw = .ok i → encode i = cw) ∧
  (∀ cw i, decodeCmd cw = .ok i ↔ decodeWord cw = .ok i ∧ i.isHost = true) ∧
  (∀ cw i, decodeBus cw = .ok i ↔ decodeWord cw = .ok i ∧ i.isHost = false)

/-- A few words of the opcode table decode to their rows' operations (R83, R85). -/
def Obligations.TableWordsDecode : Prop :=
  decodeTableWord 16 0x0001 = some .expkey ∧ decodeTableWord 16 0x0003 = some .decblk ∧
  decodeTableWord 16 0x0004 = some .encecb ∧ decodeTableWord 16 0x0007 = some .deccbc ∧
  decodeTableWord 16 0x0080 = some .ldkey ∧ decodeTableWord 16 0x1181 = some (.kexpcol 17) ∧
  decodeTableWord 16 0x0083 = some .ststate ∧ decodeTableWord 16 0x0087 = some .invshiftrows ∧
  decodeTableWord 16 0x0088 = some .mixcolumns ∧ decodeTableWord 16 0x038A = some (.addroundkey 3)

/-- A reserved word is refused, on CMD and on the unit-operation bus, and so is an ARG out of range (R88 with R84; the checks of
CLASS and of bits 6:4 on the bus are those of R82 and R87). That the word on the bus is refused before the host's next move is
taken is the model's choice (DESIGN CHOICE, notes/assumptions/8.md), and so is that a reset goes before it
(notes/assumptions/14.md). -/
def Obligations.ReservedWordsAreRefused : Prop :=
  (∀ (s : State) (cw : Word) (rest : List HostMove),
    s.host = .writeReg .cmd cw.toNat :: rest → s.seq = [] → s.busy = false →
    (cw.toNat = 0 ∨ 8 ≤ cw.toNat) → ∃ why, step s = .refused (.reservedWord cw why)) ∧
  (∀ (s : State) (cw : Word) (more : List Word),
    s.seq = cw :: more → (∀ rest, s.host ≠ .reset :: rest) →
    (11 ≤ cw.toNat % 16 ∨ cw.toNat / 16 % 16 ≠ 8 ∨
      (cw.toNat % 16 ≠ 1 ∧ cw.toNat % 16 ≠ 10 ∧ cw.toNat / 256 ≠ 0)) →
    ∃ why, step s = .refused (.reservedWord cw why)) ∧
  (∀ (s : State) (c : BitVec 8), (c.toNat < s.nk.toNat ∨ 4 * (s.nr.toNat + 1) ≤ c.toNat) →
    exec (.kexpcol c) s = .refused (.argOutOfRange c)) ∧
  (∀ (s : State) (k : BitVec 8), s.nr.toNat < k.toNat → exec (.addroundkey k) s = .refused (.argOutOfRange k))

/-! ### The step -/

/-- A word the host writes to CMD runs with the move taken and BUSY = 1 (R28, R29, R87). That CMD takes the low sixteen bits of
a value of 65536 and above is the model's reading (DEDUCED, notes/assumptions/16.md). -/
def Obligations.StepRunsTheWordWrittenToCmd : Prop :=
  ∀ (s : State) (v : Nat) (rest : List HostMove) (i : Instr),
    s.host = .writeReg .cmd v :: rest → s.seq = [] → s.busy = false → decodeCmd (BitVec.ofNat 16 v) = .ok i →
    step s = exec i { s with host := rest, busy := true }

/-- A word on the unit-operation bus runs with the word taken, unless a reset has arrived. R82 and R87 give the words and their
decoding. That the bus is a list in the state, and that a step runs its first word before the host's next move, are the model's
choice (DESIGN CHOICE, notes/assumptions/8.md), and so is that a reset goes before it (notes/assumptions/14.md). -/
def Obligations.StepRunsTheWordOnTheUnitBus : Prop :=
  ∀ (s : State) (cw : Word) (more : List Word) (i : Instr),
    s.seq = cw :: more → (∀ rest, s.host ≠ .reset :: rest) → decodeBus cw = .ok i →
    step s = exec i { s with seq := more }

/-- With nothing on the bus and no host move waiting the engine is idle and nothing changes. The step of an idle engine is
the model's choice (notes/assumptions/1.md). -/
def Obligations.IdleStepChangesNothing : Prop :=
  ∀ s : State, s.host = [] → s.seq = [] → step s = .next s

/-- Reset from any state, in the middle of a command too (R290, R291; the values are R37's). The clauses that MAX_DLEN and the
host's later moves stay and that the buffers and the bus are emptied, and the reset's going before a word on the bus, are the
model's (DEDUCED and DESIGN CHOICE, notes/assumptions/14.md). -/
def Obligations.ResetAbandonsTheCommandInProgress : Prop :=
  ∀ (s : State) (rest : List HostMove), s.host = .reset :: rest →
    ∃ t, step s = .next t ∧ t.sv = false ∧ t.busy = false ∧ t.err = .none ∧ t.klen = 0 ∧ t.dlen = 0 ∧ t.ivlen = 0 ∧
      t.olen = 0 ∧ t.seq = [] ∧ t.host = rest ∧ t.maxDlen = s.maxDlen ∧ ∀ b, t.cells b = []

/-- The state after reset: the values R37 gives, and the invariant. -/
def Obligations.ResetStateIsGood : Prop :=
  Inv State.reset ∧ State.reset.sv = false ∧ State.reset.status = 0x00 ∧ State.reset.klen = 0 ∧ State.reset.dlen = 0 ∧
  State.reset.ivlen = 0 ∧ State.reset.olen = 0 ∧ ∀ b, State.reset.cells b = []

/-- Every step keeps the invariant, from every state that meets it. -/
def Obligations.StepKeepsTheInvariant : Prop :=
  ∀ s t : State, Inv s → step s = .next t → Inv t

/-! ### Field arithmetic and tables -/

/-- `xtime` and `gmul` by their definitions on numbers and bit positions (R112, R113). -/
def Obligations.XtimeAndGmulByDefinition : Prop :=
  (∀ a : Byte, (xtime a).toNat = (2 * a.toNat % 256) ^^^ (if 128 ≤ a.toNat then 0x1b else 0x00)) ∧
  (∀ a m : Byte, gmul a m =
    (List.range 8).foldl (fun p i => if m.getLsbD i then p ^^^ Nat.repeat xtime i a else p) 0x00)

/-- `gmul` is commutative, distributes over XOR, is associative, and every byte but 0 has exactly one inverse (R115, which
the spec marks as general knowledge). -/
def Obligations.GmulIsFieldMultiplication : Prop :=
  (∀ a m : Byte, gmul a m = gmul m a) ∧ (∀ a b m : Byte, gmul (a ^^^ b) m = gmul a m ^^^ gmul b m) ∧
  (∀ a m n : Byte, gmul (gmul a m) n = gmul a (gmul m n)) ∧
  (∀ a : Byte, a ≠ 0 → ∃ b, gmul a b = 0x01 ∧ ∀ c, gmul a c = 0x01 → c = b)

/-- The seven multipliers of the mix matrices, expanded (R114). -/
def Obligations.MatrixMultipliersExpanded : Prop :=
  ∀ a : Byte,
    gmul a 0x01 = a ∧ gmul a 0x02 = xtime a ∧ gmul a 0x03 = xtime a ^^^ a ∧
    gmul a 0x09 = xtime (xtime (xtime a)) ^^^ a ∧
    gmul a 0x0b = xtime (xtime (xtime a)) ^^^ xtime a ^^^ a ∧
    gmul a 0x0d = xtime (xtime (xtime a)) ^^^ xtime (xtime a) ^^^ a ∧
    gmul a 0x0e = xtime (xtime (xtime a)) ^^^ xtime (xtime a) ^^^ xtime a

/-- The two S-boxes are inverse permutations; the forward one is the field inverse followed by the affine map, and maps no
byte to itself or to its complement (R163 to R165, whose tables the spec marks as general knowledge). -/
def Obligations.SboxesAreInversePermutations : Prop :=
  (∀ a : Byte, invSbox (sbox a) = a ∧ sbox (invSbox a) = a) ∧ (∀ a : Byte, sbox a ≠ a ∧ sbox a ≠ ~~~a) ∧
  (∀ a v : Byte, (a = 0 ∧ v = 0) ∨ gmul a v = 0x01 →
    sbox a = v ^^^ v.rotateLeft 1 ^^^ v.rotateLeft 2 ^^^ v.rotateLeft 3 ^^^ v.rotateLeft 4 ^^^ 0x63)

/-- The column functions of the key expander (R130, R131, R132). That `sub_word` and `rot_word` commute is the spec's own
inference, marked derived in R131. -/
def Obligations.ColumnFunctionsOfTheKeyExpander : Prop :=
  (∀ x : Column, rotWord x = ⟨x.get 1, x.get 2, x.get 3, x.get 0⟩) ∧
  (∀ x : Column, subWord x = ⟨sbox (x.get 0), sbox (x.get 1), sbox (x.get 2), sbox (x.get 3)⟩) ∧
  (∀ x : Column, subWord (rotWord x) = rotWord (subWord x)) ∧
  (∀ n, n < 8 → (rcon n).toNat = 1 <<< n) ∧ rcon 8 = 0x1b ∧ rcon 9 = 0x36

/-! ### Unit operations -/

/-- LDSTATE writes all sixteen bytes of S in column-major order; STSTATE reads S, hands the block back and writes nothing
(R160, R161). -/
def Obligations.LoadAndStoreStateColumnMajor : Prop :=
  encode .ldstate = 0x0082 ∧ encode .ststate = 0x0083 ∧ ∀ s : State,
    (∃ t, exec .ldstate s = .next t ∧ t = { s with mat := t.mat } ∧ SameBuffers s t ∧
      ∀ i (h : i < 16), t.mat.get ⟨i % 4, by omega⟩ ⟨i / 4, by omega⟩ = s.blkIn[i]) ∧
    (∃ t, exec .ststate s = .next t ∧ t = { s with blkOut := t.blkOut } ∧ SameBuffers s t ∧
      ∀ i (h : i < 16), t.blkOut[i] = s.mat.get ⟨i % 4, by omega⟩ ⟨i / 4, by omega⟩)

/-- STSTATE after LDSTATE gives the block back, and LDSTATE of the block STSTATE returns leaves S unchanged (R162). -/
def Obligations.LoadAndStoreStateAreInverse : Prop :=
  ∀ s : State,
    (∃ t u, exec .ldstate s = .next t ∧ exec .ststate t = .next u ∧ u.blkOut = s.blkIn) ∧
    (∃ t u, exec .ststate s = .next t ∧ exec .ldstate { t with blkIn := t.blkOut } = .next u ∧ u.mat = s.mat)

/-- SUBBYTES and INVSUBBYTES substitute every byte of S and change nothing else (R164, R166). -/
def Obligations.SubstitutionActsOnEveryByte : Prop :=
  encode .subbytes = 0x0084 ∧ encode .invsubbytes = 0x0085 ∧ ∀ s : State,
    (∃ t, exec .subbytes s = .next t ∧ t = { s with mat := t.mat } ∧ SameBuffers s t ∧
      ∀ r c, t.mat.get r c = sbox (s.mat.get r c)) ∧
    (∃ t, exec .invsubbytes s = .next t ∧ t = { s with mat := t.mat } ∧ SameBuffers s t ∧
      ∀ r c, t.mat.get r c = invSbox (s.mat.get r c))

/-- SHIFTROWS rotates row `r` left by `r`, INVSHIFTROWS right by `r`; nothing else changes (R167, R168). -/
def Obligations.ShiftRowsRotatesTheRows : Prop :=
  encode .shiftrows = 0x0086 ∧ encode .invshiftrows = 0x0087 ∧ ∀ s : State,
    (∃ t, exec .shiftrows s = .next t ∧ t = { s with mat := t.mat } ∧ SameBuffers s t ∧
      ∀ r c : Fin 4, t.mat.get r c = s.mat.get r ⟨(c.val + r.val) % 4, by omega⟩) ∧
    (∃ t, exec .invshiftrows s = .next t ∧ t = { s with mat := t.mat } ∧ SameBuffers s t ∧
      ∀ r c : Fin 4, t.mat.get r c = s.mat.get r ⟨(c.val + 4 - r.val) % 4, by omega⟩)

/-- MIXCOLUMNS multiplies each column by the forward matrix, written out with `xtime`; nothing else changes (R171). -/
def Obligations.MixColumnsMixesEachColumn : Prop :=
  encode .mixcolumns = 0x0088 ∧ ∀ s : State, ∃ t, exec .mixcolumns s = .next t ∧ t = { s with mat := t.mat } ∧ SameBuffers s t ∧
    ∀ c : Fin 4, ∀ a0 a1 a2 a3 : Byte,
      s.mat.get 0 c = a0 → s.mat.get 1 c = a1 → s.mat.get 2 c = a2 → s.mat.get 3 c = a3 →
      t.mat.get 0 c = xtime a0 ^^^ (xtime a1 ^^^ a1) ^^^ a2 ^^^ a3 ∧
      t.mat.get 1 c = a0 ^^^ xtime a1 ^^^ (xtime a2 ^^^ a2) ^^^ a3 ∧
      t.mat.get 2 c = a0 ^^^ a1 ^^^ xtime a2 ^^^ (xtime a3 ^^^ a3) ∧
      t.mat.get 3 c = (xtime a0 ^^^ a0) ^^^ a1 ^^^ a2 ^^^ xtime a3

/-- INVMIXCOLUMNS multiplies each column by the inverse matrix; nothing else changes (R174, with the entries of R173). -/
def Obligations.InvMixColumnsMixesEachColumn : Prop :=
  encode .invmixcolumns = 0x0089 ∧ ∀ s : State, ∃ t, exec .invmixcolumns s = .next t ∧ t = { s with mat := t.mat } ∧ SameBuffers s t ∧
    ∀ c : Fin 4, ∀ a0 a1 a2 a3 : Byte,
      s.mat.get 0 c = a0 → s.mat.get 1 c = a1 → s.mat.get 2 c = a2 → s.mat.get 3 c = a3 →
      t.mat.get 0 c = gmul a0 0x0e ^^^ gmul a1 0x0b ^^^ gmul a2 0x0d ^^^ gmul a3 0x09 ∧
      t.mat.get 1 c = gmul a0 0x09 ^^^ gmul a1 0x0e ^^^ gmul a2 0x0b ^^^ gmul a3 0x0d ∧
      t.mat.get 2 c = gmul a0 0x0d ^^^ gmul a1 0x09 ^^^ gmul a2 0x0e ^^^ gmul a3 0x0b ∧
      t.mat.get 3 c = gmul a0 0x0b ^^^ gmul a1 0x0d ^^^ gmul a2 0x09 ^^^ gmul a3 0x0e

/-- `INV_MIX` and `MIX` are inverse matrices, and each mixing operation undoes the other (R175). -/
def Obligations.MixMatricesAreInverse : Prop :=
  (∀ i j : Fin 4, (gmul (invMix.get i 0) (mix.get 0 j) ^^^ gmul (invMix.get i 1) (mix.get 1 j) ^^^
      gmul (invMix.get i 2) (mix.get 2 j) ^^^ gmul (invMix.get i 3) (mix.get 3 j)) = if i = j then 0x01 else 0x00) ∧
  (∀ i j : Fin 4, (gmul (mix.get i 0) (invMix.get 0 j) ^^^ gmul (mix.get i 1) (invMix.get 1 j) ^^^
      gmul (mix.get i 2) (invMix.get 2 j) ^^^ gmul (mix.get i 3) (invMix.get 3 j)) = if i = j then 0x01 else 0x00) ∧
  (∀ s : State, ∃ t, exec .mixcolumns s = .next t ∧ exec .invmixcolumns t = .next s) ∧
  (∀ s : State, ∃ t, exec .invmixcolumns s = .next t ∧ exec .mixcolumns t = .next s)

/-- The row rotations undo each other and agree on row 2 (and, being different on rows 1 and 3, are different operations);
the substitutions undo each other; and each commutes with the rotation of its direction (R166, R169). -/
def Obligations.RotationsAndSubstitutionsUndoAndCommute : Prop :=
  (∀ s : State, ∃ t, exec .shiftrows s = .next t ∧ exec .invshiftrows t = .next s) ∧
  (∀ s : State, ∃ t, exec .invshiftrows s = .next t ∧ exec .shiftrows t = .next s) ∧
  (∀ s : State, ∃ t, exec .subbytes s = .next t ∧ exec .invsubbytes t = .next s) ∧
  (∀ s : State, ∃ t, exec .invsubbytes s = .next t ∧ exec .subbytes t = .next s) ∧
  (∀ s t u : State, exec .shiftrows s = .next t → exec .invshiftrows s = .next u →
    ∀ c, t.mat.get 2 c = u.mat.get 2 c) ∧
  (∀ r : Fin 4, r = 1 ∨ r = 3 → ∃ s t u : State, exec .shiftrows s = .next t ∧ exec .invshiftrows s = .next u ∧
    ∃ c, t.mat.get r c ≠ u.mat.get r c) ∧
  (∀ s t u : State, exec .subbytes s = .next t → exec .shiftrows s = .next u →
    exec .shiftrows t = exec .subbytes u) ∧
  (∀ s t u : State, exec .invsubbytes s = .next t → exec .invshiftrows s = .next u →
    exec .invshiftrows t = exec .invsubbytes u)

/-- ADDROUNDKEY k XORs state column `c` with schedule column `4k + c`, row with row, and changes nothing else, for every `k`
in its range (R176; the premise NR <= 14 is R23's bound, which the invariant of StepKeepsTheInvariant gives for SV = 1). -/
def Obligations.AddRoundKeyXorsTheRoundKey : Prop :=
  (∀ k : BitVec 8, (encode (.addroundkey k)).toNat = 256 * k.toNat + 0x8A) ∧
  ∀ (s : State) (k : BitVec 8), k.toNat ≤ s.nr.toNat → s.nr.toNat ≤ 14 →
    ∃ t, exec (.addroundkey k) s = .next t ∧ t = { s with mat := t.mat } ∧ SameBuffers s t ∧
      ∀ r c : Fin 4, t.mat.get r c = s.mat.get r c ^^^ (schedCol s.w (4 * k.toNat + c.val)).get r

/-- ADDROUNDKEY is its own inverse: issued twice it leaves everything unchanged, for every NR (R177, which the spec derives).
With NR = 15, a value R23 does not give it, round key 15 is a free value (notes/assumptions/4.md). -/
def Obligations.AddRoundKeyTwiceChangesNothing : Prop :=
  ∀ (s : State) (k : BitVec 8), k.toNat ≤ s.nr.toNat →
    ∃ t, exec (.addroundkey k) s = .next t ∧ exec (.addroundkey k) t = .next s

/-- LDKEY writes NK, NR and the first NK columns from the key, and nothing else (R133). -/
def Obligations.LdkeyLoadsTheKeyColumns : Prop :=
  encode .ldkey = 0x0080 ∧ ∀ s : State, s.klen = 16 ∨ s.klen = 24 ∨ s.klen = 32 →
    ∃ t, exec .ldkey s = .next t ∧ t = { s with nk := t.nk, nr := t.nr, w := t.w } ∧ SameBuffers s t ∧
      t.nk.toNat = s.klen / 4 ∧ t.nr.toNat = t.nk.toNat + 6 ∧
      (∀ c (r : Fin 4), c < t.nk.toNat → (schedCol t.w c).get r = s.loadByte .keybuf (4 * c + r.val)) ∧
      (∀ c, t.nk.toNat ≤ c → schedCol t.w c = schedCol s.w c)

/-- LDKEY with a length the sequencer's check excludes is refused: the model's reading of R133 (DEDUCED,
notes/assumptions/11.md). KEXPCOL completes under every NK and NR whose range of R84 takes its column, and writes that column
and the model's count of free bytes only; an NK of 4, 6 or 8 gives the column R135's value, whatever NR is, and under any other
NK the column is a free value (DESIGN CHOICE, notes/assumptions/20.md). -/
def Obligations.LdkeyNeedsACheckedKeyLength : Prop :=
  (∀ s : State, s.klen ≠ 16 → s.klen ≠ 24 → s.klen ≠ 32 → exec .ldkey s = .refused .keyLengthUnchecked) ∧
  (∀ (s : State) (c : BitVec 8), s.nk.toNat ≤ c.toNat → c.toNat < 4 * (s.nr.toNat + 1) →
    ∃ t, exec (.kexpcol c) s = .next t ∧ t = { s with w := t.w, fresh := t.fresh } ∧ SameBuffers s t ∧
      (∀ d, d ≠ c.toNat → schedCol t.w d = schedCol s.w d) ∧
      (s.nk = 4 ∨ s.nk = 6 ∨ s.nk = 8 → t.fresh = s.fresh ∧ (c.toNat < 60 → ColumnRule t.w s.nk.toNat c.toNat)))

/-- KEXPCOL c writes column `c` by the three cases of R135 and nothing else, for every `c` in its range. -/
def Obligations.KexpcolDerivesItsColumn : Prop :=
  (∀ c : BitVec 8, (encode (.kexpcol c)).toNat = 256 * c.toNat + 0x81) ∧
  ∀ (s : State) (c : BitVec 8), keySizeOk s.nk s.nr = true → s.nk.toNat ≤ c.toNat → c.toNat < 4 * (s.nr.toNat + 1) →
    ∃ t, exec (.kexpcol c) s = .next t ∧ t = { s with w := t.w } ∧ SameBuffers s t ∧
      ColumnRule t.w s.nk.toNat c.toNat ∧ ∀ d, d ≠ c.toNat → schedCol t.w d = schedCol s.w d

/-! ### EXPKEY -/

/-- EXPKEY with a key of a legal length completes: the schedule stands in W, NK and NR, SV = 1, OLEN = 0, ERR = 0, and
nothing else changes; the columns beyond the schedule keep what they held. With any other length it reports
InvalidKeyLength and W, NK, NR and SV keep their values (R137). -/
def Obligations.ExpkeyBuildsTheSchedule : Prop :=
  encode .expkey = 0x0001 ∧ ∀ s : State,
    (s.klen = 16 ∨ s.klen = 24 ∨ s.klen = 32 →
      ∃ t, exec .expkey s = .next t ∧
        t = { s with w := t.w, nk := t.nk, nr := t.nr, sv := true, olen := 0, err := .none, busy := false } ∧
        SameBuffers s t ∧ HoldsSchedule s t ∧ ∀ c, 4 * (s.klen / 4 + 7) ≤ c → schedCol t.w c = schedCol s.w c) ∧
    (¬ (s.klen = 16 ∨ s.klen = 24 ∨ s.klen = 32) →
      exec .expkey s = .next { s with err := .invalidKeyLength, olen := 0, busy := false })

/-- EXPKEY's W, NK and NR are what its unit operations leave when their words run one by one on the unit-operation bus
(R92, R137). -/
def Obligations.ExpkeyIsItsUnitOperations : Prop :=
  ∀ s t : State, s.klen = 16 ∨ s.klen = 24 ∨ s.klen = 32 → exec .expkey s = .next t →
    (expkeyUnits t.nk t.nr).length = 1 + 4 * (t.nr.toNat + 1) - t.nk.toNat ∧
    ∃ u, Host.Core.run Sys2Proof.core (expkeyUnits t.nk t.nr).length (s.withUnits (expkeyUnits t.nk t.nr) s.blkIn) = .next u ∧
      u.w = t.w ∧ u.nk = t.nk ∧ u.nr = t.nr ∧ u.seq = []

/-- After EXPKEY the host reads the schedule through SCHED: the byte at `4c + r` is `W[c][r]`, and offsets 0 to `KLEN-1` are
the key (R39, R134). -/
def Obligations.ScheduleWindowShowsTheKeyAndW : Prop :=
  ∀ (s t : State) (off : Nat) (rest : List HostMove), exec .expkey s = .next t → t.err = .none → t.seq = [] →
    off < 16 * (t.nr.toNat + 1) →
    ∃ u, step { t with host := .readByte .sched off :: rest } = .next u ∧
      u.rdata = ((schedCol t.w (off / 4)).get ⟨off % 4, Nat.mod_lt _ (by decide)⟩).toNat ∧
      (off < s.klen → u.rdata = (s.loadByte .keybuf off).toNat) ∧ u.w = t.w

/-- EXPKEY is a function of the key alone: two states with the same key give the same schedule (R138). -/
def Obligations.ExpansionDependsOnTheKeyAlone : Prop :=
  ∀ s u t v : State, s.klen = u.klen → (∀ off, off < s.klen → s.loadByte .keybuf off = u.loadByte .keybuf off) →
    exec .expkey s = .next t → exec .expkey u = .next v → t.err = .none →
    v.err = .none ∧ t.nk = v.nk ∧ t.nr = v.nr ∧ ∀ c, c < 4 * (t.nr.toNat + 1) → schedCol t.w c = schedCol v.w c

/-! ### ENCBLK and DECBLK -/

/-- ENCBLK and DECBLK complete with a schedule and a 16-byte block: sixteen bytes of `enc_block` or `dec_block` in DOUT,
OLEN = 16, ERR = 0; W, NK, NR, SV and CV are not written, nor is any other byte of a buffer (R201, R202). S is left
unspecified (R25). -/
def Obligations.BlockCommandsComplete : Prop :=
  ∀ s : State, s.sv = true → s.dlen = 16 →
    (∃ t, exec .encblk s = .next t ∧
      t = { s with dout := t.dout, mat := t.mat, fresh := t.fresh, olen := 16, err := .none, busy := false } ∧
      SameButResult 16 s t ∧ t.outBlock 0 = encBlock s.w s.nr.toNat (s.loadBlock .din 0)) ∧
    (∃ t, exec .decblk s = .next t ∧
      t = { s with dout := t.dout, mat := t.mat, fresh := t.fresh, olen := 16, err := .none, busy := false } ∧
      SameButResult 16 s t ∧ t.outBlock 0 = decBlock s.w s.nr.toNat (s.loadBlock .din 0))

/-- Without a schedule a block command is refused, whatever DLEN is (R203). -/
def Obligations.BlockCommandsNeedASchedule : Prop :=
  ∀ s : State, s.sv = false → exec .encblk s = .refused .noSchedule ∧ exec .decblk s = .refused .noSchedule

/-- ENCBLK puts into DOUT the block its unit operations hand back when their words run one by one on the unit-operation bus,
`4*NR + 2` of them, on the block in DIN (R92, R201). -/
def Obligations.EncblkIsItsUnitOperations : Prop :=
  ∀ s : State, s.sv = true → keySizeOk s.nk s.nr = true → s.dlen = 16 →
    (encblkUnits s.nr.toNat).length = 4 * s.nr.toNat + 2 ∧
    ∃ t u, exec .encblk s = .next t ∧
      Host.Core.run Sys2Proof.core (encblkUnits s.nr.toNat).length
        (s.withUnits (encblkUnits s.nr.toNat) (s.loadBlock .din 0)) = .next u ∧
      u.blkOut = t.outBlock 0 ∧ u.w = s.w ∧ u.seq = [] ∧ u.dout = s.dout

/-- DECBLK puts into DOUT the block its unit operations hand back, likewise (R92, R202). -/
def Obligations.DecblkIsItsUnitOperations : Prop :=
  ∀ s : State, s.sv = true → keySizeOk s.nk s.nr = true → s.dlen = 16 →
    (decblkUnits s.nr.toNat).length = 4 * s.nr.toNat + 2 ∧
    ∃ t u, exec .decblk s = .next t ∧
      Host.Core.run Sys2Proof.core (decblkUnits s.nr.toNat).length
        (s.withUnits (decblkUnits s.nr.toNat) (s.loadBlock .din 0)) = .next u ∧
      u.blkOut = t.outBlock 0 ∧ u.w = s.w ∧ u.seq = [] ∧ u.dout = s.dout

/-- Under one schedule decrypting the encrypted block gives the block, and encrypting the decrypted one too: the host copies
DOUT to DIN between the two commands. R205 gives the first identity in the source's words; the second, `enc_block(dec_block(b))
= b`, is an inference that the spec marks as its own (derived). -/
def Obligations.BlockRoundTrip : Prop :=
  ∀ s : State, s.sv = true → s.dlen = 16 →
    (∃ t u, exec .encblk s = .next t ∧ exec .decblk { t with din := t.dout } = .next u ∧
      u.outBlock 0 = s.loadBlock .din 0) ∧
    (∃ t u, exec .decblk s = .next t ∧ exec .encblk { t with din := t.dout } = .next u ∧
      u.outBlock 0 = s.loadBlock .din 0)

/-- A block command's result depends on the schedule's used columns, NR and the block only (R204). -/
def Obligations.BlockResultDependsOnScheduleAndBlock : Prop :=
  ∀ (s u t : State) (i : Instr), i = .encblk ∨ i = .decblk → s.sv = true → u.sv = true → s.dlen = 16 → u.dlen = 16 →
    s.nr = u.nr → (∀ c, c < 4 * (s.nr.toNat + 1) → schedCol s.w c = schedCol u.w c) →
    (∀ off, off < 16 → s.loadByte .din off = u.loadByte .din off) → exec i s = .next t →
    ∃ v, exec i u = .next v ∧ SameAnswer t v

/-! ### The bulk commands -/

/-- ENCECB and DECECB complete when every operand check passes: output block `i` is `enc_block` or `dec_block` of input block
`i` under the schedule EXPKEY builds from the same key; OLEN = DLEN, ERR = 0, SV = 0 (R221, R222, R224). W, NK, NR and S are
left unspecified (R25, R301). -/
def Obligations.EcbCommandsComplete : Prop :=
  ∀ s : State, BulkOperandsOk false s →
    ∃ k, exec .expkey s = .next k ∧
    (∃ t, exec .encecb s = .next t ∧ BulkFrame false s t ∧
      ∀ i, i < s.dlen / 16 → t.outBlock i = encBlock k.w k.nr.toNat (s.loadBlock .din (16 * i))) ∧
    (∃ t, exec .dececb s = .next t ∧ BulkFrame false s t ∧
      ∀ i, i < s.dlen / 16 → t.outBlock i = decBlock k.w k.nr.toNat (s.loadBlock .din (16 * i)))

/-- ENCCBC completes when every operand check passes: `C_i = E(P_i ^ C_(i-1))` with `C_(-1) = iv` (R225, R226, R227). CV too is
left unspecified (R26). -/
def Obligations.EnccbcCompletes : Prop :=
  ∀ s : State, BulkOperandsOk true s →
    ∃ k t, exec .expkey s = .next k ∧ exec .enccbc s = .next t ∧ BulkFrame true s t ∧
      ∀ i, i < s.dlen / 16 → t.outBlock i = encBlock k.w k.nr.toNat
        (xor16 (s.loadBlock .din (16 * i)) (if i = 0 then s.loadBlock .ivbuf 0 else t.outBlock (i - 1)))

/-- DECCBC completes when every operand check passes: `P_i = D(C_i) ^ C_(i-1)` with `C_(-1) = iv`, the chain value being the
ciphertext consumed (R225, R228, R229). -/
def Obligations.DeccbcCompletes : Prop :=
  ∀ s : State, BulkOperandsOk true s →
    ∃ k t, exec .expkey s = .next k ∧ exec .deccbc s = .next t ∧ BulkFrame true s t ∧
      ∀ i, i < s.dlen / 16 → t.outBlock i =
        xor16 (decBlock k.w k.nr.toNat (s.loadBlock .din (16 * i)))
          (if i = 0 then s.loadBlock .ivbuf 0 else s.loadBlock .din (16 * (i - 1)))

/-- The empty buffer: every bulk command completes with OLEN = 0, ERR = 0, SV = 0 and writes no byte (R231). -/
def Obligations.EmptyBufferCompletes : Prop :=
  ∀ (s : State) (i : Instr), i.isBulk = true → s.dlen = 0 → (s.klen = 16 ∨ s.klen = 24 ∨ s.klen = 32) →
    ((i = .enccbc ∨ i = .deccbc) → s.ivlen = 16) →
    ∃ t, exec i s = .next t ∧ t.olen = 0 ∧ t.err = .none ∧ t.sv = false ∧ SameBuffers s t

/-- Bulk round trip: decrypting DOUT, copied to DIN, under the same key and IV gives the data back, for ECB and for CBC
(R230). -/
def Obligations.BulkRoundTrip : Prop :=
  (∀ s : State, BulkOperandsOk false s →
    ∃ t u, exec .encecb s = .next t ∧ exec .dececb { t with din := t.dout } = .next u ∧
      u.olen = s.dlen ∧ ∀ off, off < s.dlen → u.loadByte .dout off = s.loadByte .din off) ∧
  (∀ s : State, BulkOperandsOk true s →
    ∃ t u, exec .enccbc s = .next t ∧ exec .deccbc { t with din := t.dout } = .next u ∧
      u.olen = s.dlen ∧ ∀ off, off < s.dlen → u.loadByte .dout off = s.loadByte .din off)

/-- Equal plaintext blocks give equal ciphertext blocks in ECB (R223); in CBC two equal first blocks give equal ciphertext
blocks exactly when the first ciphertext block is the IV (R233). -/
def Obligations.EqualBlocksInEcbAndCbc : Prop :=
  (∀ (s t : State) (i j : Nat), BulkOperandsOk false s → exec .encecb s = .next t → i < s.dlen / 16 → j < s.dlen / 16 →
    s.loadBlock .din (16 * i) = s.loadBlock .din (16 * j) → t.outBlock i = t.outBlock j) ∧
  (∀ s t : State, BulkOperandsOk true s → exec .enccbc s = .next t → 2 ≤ s.dlen / 16 →
    s.loadBlock .din 0 = s.loadBlock .din 16 → (t.outBlock 1 = t.outBlock 0 ↔ t.outBlock 0 = s.loadBlock .ivbuf 0))

/-- A wrong IV corrupts output block 0 of DECCBC only: block 0 is the same exactly when the two IV blocks are, and every later
block is the same (R228, an inference the spec marks as its own; V43). -/
def Obligations.WrongIvCorruptsBlockZeroOnly : Prop :=
  ∀ (s t u : State) (iv : Mem), BulkOperandsOk true s → exec .deccbc s = .next t →
    exec .deccbc { s with ivbuf := iv } = .next u →
    (0 < s.dlen / 16 →
      (u.outBlock 0 = t.outBlock 0 ↔ { s with ivbuf := iv }.loadBlock .ivbuf 0 = s.loadBlock .ivbuf 0)) ∧
    ∀ i, 1 ≤ i → i < s.dlen / 16 → u.outBlock i = t.outBlock i

/-- One block through ENCECB gives the same bytes as EXPKEY followed by ENCBLK, and likewise for decryption (R222). -/
def Obligations.OneBlockEcbEqualsBlockCommand : Prop :=
  ∀ s : State, BulkOperandsOk false s → s.dlen = 16 →
    ∃ k, exec .expkey s = .next k ∧
      (∃ t u, exec .encblk k = .next t ∧ exec .encecb s = .next u ∧ u.outBlock 0 = t.outBlock 0) ∧
      (∃ t u, exec .decblk k = .next t ∧ exec .dececb s = .next u ∧ u.outBlock 0 = t.outBlock 0)

/-- A bulk command's answer depends on its operands and on nothing else: not on W, SV, CV, S, DOUT, ERR or the bytes beyond
the lengths (R51, R59). -/
def Obligations.BulkAnswerDependsOnItsOperands : Prop :=
  ∀ (s u t : State) (i : Instr), i.isBulk = true → SameBulkOperands (i == .enccbc || i == .deccbc) s u →
    exec i s = .next t → ∃ v, exec i u = .next v ∧ SameAnswer t v

/-- A bulk command with DLEN above MAX_DLEN is refused; ENCBLK and DECBLK then report InvalidBlockSize by length alone, and
EXPKEY does not look at DLEN. The refusal before the other checks is the model's reading (R51; notes/assumptions/7.md). -/
def Obligations.OversizeDataIsRefused : Prop :=
  ∀ (s : State) (n : Nat), s.maxDlen = some n → 16 ≤ n → n < s.dlen →
    (∀ i : Instr, i.isBulk = true → exec i s = .refused .overCapacity) ∧
    (s.sv = true → exec .encblk s = .next (s.raiseError .invalidBlockSize) ∧
      exec .decblk s = .next (s.raiseError .invalidBlockSize)) ∧
    (∀ d t, exec .expkey s = .next t → exec .expkey { s with dlen := d } = .next { t with dlen := d })

/-! ### Errors and whole-machine rules -/

/-- Which command raises which error, the first failing check in the order key length, data length, IV length; ENCBLK and
DECBLK are refused first when SV = 0 (R269, R257). -/
def Obligations.FirstFailingCheckIsReported : Prop :=
  ∀ s : State,
    (¬ (s.klen = 16 ∨ s.klen = 24 ∨ s.klen = 32) → exec .expkey s = .next (s.raiseError .invalidKeyLength)) ∧
    (∀ i : Instr, i = .encblk ∨ i = .decblk →
      (s.sv = false → exec i s = .refused .noSchedule) ∧
      (s.sv = true → s.dlen ≠ 16 → exec i s = .next (s.raiseError .invalidBlockSize))) ∧
    (∀ i : Instr, i.isBulk = true → s.fits s.dlen = true →
      (¬ (s.klen = 16 ∨ s.klen = 24 ∨ s.klen = 32) → exec i s = .next (s.raiseError .invalidKeyLength)) ∧
      ((s.klen = 16 ∨ s.klen = 24 ∨ s.klen = 32) → s.dlen % 16 ≠ 0 → exec i s = .next (s.raiseError .unalignedData)) ∧
      (i = .enccbc ∨ i = .deccbc → (s.klen = 16 ∨ s.klen = 24 ∨ s.klen = 32) → s.dlen % 16 = 0 → s.ivlen ≠ 16 →
        exec i s = .next (s.raiseError .invalidIvSize)))

/-- A host command that reports an error kind has written ERR, OLEN and BUSY and nothing else, and the kind is one of the
core's four (R256, R250). -/
def Obligations.AnErrorChangesNothingElse : Prop :=
  ∀ (i : Instr) (s t : State), i.isHost = true → exec i s = .next t → t.err ≠ .none →
    t = { s with err := t.err, olen := 0, busy := false } ∧ SameBuffers s t ∧ t.err ≠ .corruptPadding

/-- A host command's outcome does not depend on the ERR, OLEN and BUSY it finds: they are overwritten by its own (R260, R34,
R36). -/
def Obligations.EveryCommandOverwritesErr : Prop :=
  ∀ (i : Instr) (s : State) (e : ErrKind) (n : Nat) (b : Bool), i.isHost = true →
    exec i { s with err := e, olen := n, busy := b } = exec i s

/-- A completing EXPKEY sets SV, a completing bulk command clears it, and nothing else that runs changes it: an erroring
command leaves it as it was. In a step SV changes only by a reset, which leaves it 0, by a completing EXPKEY, which leaves it 1,
or by a completing bulk command, which leaves it 0 (R24, R29). -/
def Obligations.OnlyExpkeySetsSvAndBulkClearsIt : Prop :=
  (∀ (i : Instr) (s t : State), exec i s = .next t →
    (i = .expkey → t.err = .none → t.sv = true) ∧ (i.isBulk = true → t.err = .none → t.sv = false) ∧
    (i.isHost = true → t.err ≠ .none → t.sv = s.sv) ∧ (i ≠ .expkey → i.isBulk = false → t.sv = s.sv)) ∧
  (∀ (s t : State) (rest : List HostMove), s.host = .reset :: rest → step s = .next t → t.sv = false) ∧
  (∀ s t : State, step s = .next t → t.sv ≠ s.sv →
    (∃ rest, s.host = .reset :: rest) ∨
    (∃ v rest i, s.seq = [] ∧ s.host = .writeReg .cmd v :: rest ∧ decodeCmd (BitVec.ofNat 16 v) = .ok i ∧ t.err = .none ∧
      ((i = .expkey ∧ t.sv = true) ∨ (i.isBulk = true ∧ t.sv = false))))

/-- What no operation writes, and which operation may write which state (R40, R38, R22, R26, and the rules of the unit
operations). The model's count of free bytes moves in no unit operation but a KEXPCOL under an NK that R23 does not give
(notes/assumptions/20.md). -/
def Obligations.AccessTable : Prop :=
  ∀ (i : Instr) (s t : State), exec i s = .next t →
    (t.keybuf = s.keybuf ∧ t.din = s.din ∧ t.ivbuf = s.ivbuf ∧ t.klen = s.klen ∧ t.dlen = s.dlen ∧ t.ivlen = s.ivlen ∧
      t.maxDlen = s.maxDlen ∧ t.host = s.host ∧ t.seq = s.seq ∧ t.rdata = s.rdata ∧ t.epoch = s.epoch ∧
      t.blkIn = s.blkIn) ∧
    (i ≠ .expkey → i ≠ .ldkey → i.isBulk = false → t.nk = s.nk ∧ t.nr = s.nr ∧ ((∀ c, i ≠ .kexpcol c) → t.w = s.w)) ∧
    (i ≠ .enccbc → i ≠ .deccbc → t.cv = s.cv) ∧
    (i = .expkey ∨ i.isHost = false → t.dout = s.dout) ∧
    (i ≠ .ststate → t.blkOut = s.blkOut) ∧
    (i.isHost = false → t.err = s.err ∧ t.olen = s.olen ∧ t.sv = s.sv ∧ t.busy = s.busy) ∧
    (i.isHost = false → ((∀ c, i ≠ .kexpcol c) ∨ s.nk = 4 ∨ s.nk = 6 ∨ s.nk = 8) → t.fresh = s.fresh) ∧
    (i = .expkey ∨ i = .ldkey ∨ (∃ c, i = .kexpcol c) ∨ i = .ststate → t.mat = s.mat)

/-! ### The host port -/

/-- STATUS shows BUSY in bit 0, SV in bit 1 and the code of ERR in bits 4:2; bits 7:5 read 0 (R29, R251). A host read of STATUS
gives that word; of OLEN the length of the result; of DOUT below OLEN the result's byte; and each changes the value read only
(R27, R31, R50, R293). A read of STATUS with BUSY = 1 is the model's reading (notes/assumptions/16.md). -/
def Obligations.StatusWordFields : Prop :=
  (∀ (s : State) (rest : List HostMove), s.seq = [] → s.host = .readReg .status :: rest →
    step s = .next { s with host := rest, rdata := s.busy.toNat + 2 * s.sv.toNat + 4 * s.err.code.toNat }) ∧
  (∀ (s : State) (rest : List HostMove), s.seq = [] → s.busy = false → s.host = .readReg .olen :: rest →
    step s = .next { s with host := rest, rdata := s.olen }) ∧
  (∀ (s : State) (off : Nat) (rest : List HostMove), s.seq = [] → s.busy = false → s.fits s.olen = true → off < s.olen →
    s.host = .readByte (.buffer .dout) off :: rest →
    step s = .next { s with host := rest, rdata := (s.loadByte .dout off).toNat }) ∧
  (∀ s : State, s.status.toNat = s.busy.toNat + 2 * s.sv.toNat + 4 * s.err.code.toNat ∧ s.status.toNat < 32) ∧
  ErrKind.code .none = 0 ∧ ErrKind.code .invalidKeyLength = 1 ∧ ErrKind.code .invalidBlockSize = 2 ∧
  ErrKind.code .unalignedData = 3 ∧ ErrKind.code .invalidIvSize = 4 ∧ ErrKind.code .corruptPadding = 5

/-- A read of SCHEDINFO with SV = 1 gives 0xA4, 0xC6 or 0xE8 by the key size (R32, R23). -/
def Obligations.SchedInfoNamesTheKeySize : Prop :=
  ∀ (s : State) (rest : List HostMove), Inv s → s.sv = true → s.seq = [] → s.host = .readReg .schedinfo :: rest →
    ∃ t, step s = .next t ∧ t = { s with host := rest, rdata := t.rdata, fresh := t.fresh } ∧
      ((s.nk = 4 ∧ t.rdata = 0xA4) ∨ (s.nk = 6 ∧ t.rdata = 0xC6) ∨ (s.nk = 8 ∧ t.rdata = 0xE8))

/-- A length register takes any value and reads it back, and no other part of the block changes. R30 says any value of LENW
bits; that LENW is unbounded, so that every natural number is one, is the model's choice, which R9 allows (DESIGN CHOICE, unsafe
above 2^LENW, notes/assumptions/6.md). -/
def Obligations.LengthRegistersTakeAnyValue : Prop :=
  ∀ (s : State) (v : Nat) (rest : List HostMove), s.seq = [] → s.busy = false →
    (s.host = .writeReg .klen v :: .readReg .klen :: rest → ∃ t u, step s = .next t ∧ step t = .next u ∧
      u.rdata = v ∧ u = { s with klen := v, rdata := v, host := rest }) ∧
    (s.host = .writeReg .dlen v :: .readReg .dlen :: rest → ∃ t u, step s = .next t ∧ step t = .next u ∧
      u.rdata = v ∧ u = { s with dlen := v, rdata := v, host := rest }) ∧
    (s.host = .writeReg .ivlen v :: .readReg .ivlen :: rest → ∃ t u, step s = .next t ∧ step t = .next u ∧
      u.rdata = v ∧ u = { s with ivlen := v, rdata := v, host := rest })

/-- A byte the host writes into KEYBUF, DIN or IVBUF reads back, and every other byte of every buffer reads as before
(R50, R57). -/
def Obligations.InputBuffersKeepTheByteWritten : Prop :=
  ∀ (s : State) (b : Buffer) (off : Nat) (v : Byte) (rest : List HostMove), b ≠ .dout → s.seq = [] → s.busy = false →
    s.hasOffset (.buffer b) off = true → s.host = .writeByte (.buffer b) off v :: .readByte (.buffer b) off :: rest →
    ∃ t u, step s = .next t ∧ step t = .next u ∧ u.rdata = v.toNat ∧
      (∀ c p, (c = b → p ≠ off) → u.loadByte c p = s.loadByte c p) ∧
      u = { s with keybuf := u.keybuf, din := u.din, ivbuf := u.ivbuf, rdata := u.rdata, host := rest }

/-- Writes to a read-only register, to DOUT and to SCHED are ignored (R27, R39, R50). That they run with BUSY = 1 too is the
model's reading (DEDUCED, notes/assumptions/16.md). -/
def Obligations.WritesToReadOnlyPlacesAreIgnored : Prop :=
  ∀ (s : State) (m : HostMove) (rest : List HostMove), s.host = m :: rest → s.seq = [] →
    ((∃ v, m = .writeReg .status v ∨ m = .writeReg .olen v ∨ m = .writeReg .schedinfo v) ∨
      (∃ off v, m = .writeByte (.buffer .dout) off v ∧ s.hasOffset (.buffer .dout) off = true) ∨
      (∃ off v, m = .writeByte .sched off v ∧ off < 240)) →
    step s = .next { s with host := rest }

/-- While BUSY = 1 the moves that R62 and R296 forbid are refused (R270). Refusing exactly these, the read of SCHEDINFO among
them, on which R296 only forbids to rely, is the model's reading (DEDUCED, notes/assumptions/16.md). -/
def Obligations.HostMustNotActWhileBusy : Prop :=
  ∀ (s : State) (m : HostMove) (rest : List HostMove), s.host = m :: rest → s.seq = [] → s.busy = true →
    ((∃ v, m = .writeReg .cmd v ∨ m = .writeReg .klen v ∨ m = .writeReg .dlen v ∨ m = .writeReg .ivlen v) ∨
      (∃ off v, m = .writeByte (.buffer .keybuf) off v ∨ m = .writeByte (.buffer .din) off v ∨
        m = .writeByte (.buffer .ivbuf) off v) ∨
      m = .readReg .olen ∨ m = .readReg .schedinfo ∨
      (∃ off, m = .readByte (.buffer .dout) off ∨ m = .readByte .sched off)) →
    step s = .refused .hostWhileBusy

/-- A host access at an offset a space does not have faults: the model's choice (notes/assumptions/15.md). The capacities are
those of R50. -/
def Obligations.OffsetsBeyondCapacityFault : Prop :=
  ∀ (s : State) (x : Space) (off : Nat) (v : Byte) (rest : List HostMove), s.seq = [] → s.busy = false →
    ((x = .buffer .keybuf ∧ 32 ≤ off) ∨ (x = .buffer .ivbuf ∧ 16 ≤ off) ∨ (x = .sched ∧ 240 ≤ off) ∨
      ((x = .buffer .din ∨ x = .buffer .dout) ∧ ∃ n, s.maxDlen = some n ∧ n ≤ off)) →
    (s.host = .writeByte x off v :: rest ∨ s.host = .readByte x off :: rest) → step s = .fault (.noSuchOffset x off)

/-! ### Host software -/

/-- PAD appends 1 to 16 bytes each holding their count, up to the next multiple of 16 strictly above the length; UNPAD gives
the data back, which R322 marks as the spec's own inference; and the CBC framing comes apart into what was framed (R321 to
R323). They are host software (notes/assumptions/18.md). -/
def Obligations.UnpadUndoesPad : Prop :=
  (∀ x : List Byte, ∃ n, 1 ≤ n ∧ n ≤ 16 ∧ pad x = x ++ List.replicate n (BitVec.ofNat 8 n) ∧
    (pad x).length % 16 = 0 ∧ unpad (pad x) = .data x) ∧
  (∀ (iv : Block) (x : List Byte), unframeCbc (frameCbc iv x) = some (iv.toList, x))

end
end

