-- ==== Sys2Proof/Laws/Containers.lean ====
section
/-! SUPPORT. The containers: reading what `ofFn` built, extensionality, and reading a schedule after a column is set. -/

namespace Sys2Proof.Machine

@[simp] theorem Column.get_ofFn (f : Fin 4 → Byte) (r : Fin 4) : (Column.ofFn f).get r = f r := by
  match r with
  | 0 => rfl
  | 1 => rfl
  | 2 => rfl
  | 3 => rfl

@[simp] theorem Mat.get_ofFn (f : Fin 4 → Fin 4 → Byte) (r c : Fin 4) : (Mat.ofFn f).get r c = f r c := by
  match c with
  | 0 => exact Column.get_ofFn (f · 0) r
  | 1 => exact Column.get_ofFn (f · 1) r
  | 2 => exact Column.get_ofFn (f · 2) r
  | 3 => exact Column.get_ofFn (f · 3) r

theorem Column.ext_get {x y : Column} (h : ∀ r, x.get r = y.get r) : x = y := by
  cases x
  cases y
  have h0 := h 0
  have h1 := h 1
  have h2 := h 2
  have h3 := h 3
  simp_all [Column.get]

theorem Mat.ext_get {m n : Mat} (h : ∀ r c, m.get r c = n.get r c) : m = n := by
  have col : ∀ c, m.col c = n.col c := fun c => Column.ext_get fun r => h r c
  cases m
  cases n
  have h0 := col 0
  have h1 := col 1
  have h2 := col 2
  have h3 := col 3
  simp_all [Mat.col]

/-- Two blocks with the same sixteen bytes are the same. -/
theorem Block.ext_getElem {x y : Block} (h : ∀ i (hi : i < 16), x[i] = y[i]) : x = y := Vector.ext h

@[simp] theorem schedCol_schedSet_same (w : Sched) (c : Nat) (x : Column) (h : c < 60) :
    schedCol (schedSet w c x) c = x := by
  simp [schedCol, schedSet, h]

@[simp] theorem schedCol_schedSet_other (w : Sched) (c d : Nat) (x : Column) (h : c ≠ d) :
    schedCol (schedSet w c x) d = schedCol w d := by
  simp [schedCol, schedSet, h]

@[simp] theorem matOfBlock_get (b : Block) (r c : Fin 4) : (matOfBlock b).get r c = b[r.val + 4 * c.val] := by
  simp [matOfBlock]

@[simp] theorem blockOfMat_getElem (m : Mat) (i : Nat) (h : i < 16) :
    (blockOfMat m)[i] = m.get ⟨i % 4, Nat.mod_lt _ (by decide)⟩ ⟨i / 4, by omega⟩ := by
  simp [blockOfMat]

@[simp] theorem roundKey_get (w : Sched) (k : Nat) (r c : Fin 4) :
    (roundKey w k).get r c = (schedCol w (4 * k + c.val)).get r := by
  simp [roundKey]

end Sys2Proof.Machine
end

