-- ==== Sys2Proof/Laws/Memory.lean ====
section
/-! SUPPORT. The laws of a buffer's bytes: what a read gives after a write, and that every write keeps the canonical form. -/

namespace Sys2Proof.Machine

@[simp] theorem memRead_memWrite_same (m : Mem) (a : Nat) (v : Byte) : memRead (memWrite m a v) a = some v := by
  induction m with
  | nil => simp [memWrite, memRead]
  | cons x rest ih =>
    obtain ⟨b, y⟩ := x
    simp only [memWrite]
    split
    · simp [memRead]
    · split
      · simp [memRead]
      · simp [memRead, *]

theorem memRead_memWrite_other (m : Mem) (a c : Nat) (v : Byte) (h : c ≠ a) :
    memRead (memWrite m a v) c = memRead m c := by
  induction m with
  | nil => simp [memWrite, memRead, h]
  | cons x rest ih =>
    obtain ⟨b, y⟩ := x
    simp only [memWrite]
    split
    · simp [memRead, h]
    · split
      · next hab => subst hab; simp [memRead, h]
      · simp only [memRead, ih]

theorem memRead_memWriteBytes (bytes : List Byte) (m : Mem) (off c : Nat) :
    memRead (memWriteBytes m off bytes) c =
      if off ≤ c ∧ c < off + bytes.length then bytes[c - off]? else memRead m c := by
  induction bytes generalizing m off with
  | nil => rw [if_neg (by simp only [List.length_nil]; omega)]; rfl
  | cons v vs ih =>
    simp only [memWriteBytes, ih, List.length_cons]
    rcases Nat.lt_trichotomy c off with h | h | h
    · rw [if_neg (by omega), if_neg (by omega), memRead_memWrite_other _ _ _ _ (by omega)]
    · subst h
      rw [if_neg (by omega), if_pos (by omega)]
      simp
    · by_cases h2 : c < off + (vs.length + 1)
      · rw [if_pos (by omega), if_pos (by omega)]
        obtain ⟨k, rfl⟩ : ∃ k, c = off + 1 + k := ⟨c - (off + 1), by omega⟩
        rw [show off + 1 + k - (off + 1) = k by omega, show off + 1 + k - off = k + 1 by omega]
        simp
      · rw [if_neg (by omega), if_neg (by omega), memRead_memWrite_other _ _ _ _ (by omega)]

/-- The first offset of a written buffer is the old one or the one written. -/
theorem memWrite_head (m : Mem) (a : Nat) (v : Byte) (b : Nat) (y : Byte) (rest : Mem)
    (h : memWrite m a v = (b, y) :: rest) : b = a ∨ ∃ z tail, m = (b, z) :: tail := by
  cases m with
  | nil => simp [memWrite] at h; exact .inl h.1.1.symm
  | cons x tail =>
    obtain ⟨c, z⟩ := x
    simp only [memWrite] at h
    split at h
    · simp at h; exact .inl h.1.1.symm
    · split at h
      · simp at h; exact .inl h.1.1.symm
      · simp at h; exact .inr ⟨z, tail, by simp [h.1.1]⟩

theorem memWf_cons (a : Nat) (x : Byte) (rest : Mem) :
    memWf ((a, x) :: rest) = true ↔ memWf rest = true ∧ ∀ b y tail, rest = (b, y) :: tail → a < b := by
  cases rest with
  | nil => simp [memWf]
  | cons c tail =>
    obtain ⟨b, y⟩ := c
    simp only [memWf, Bool.and_eq_true, decide_eq_true_eq]
    constructor
    · rintro ⟨h1, h2⟩
      refine ⟨h2, ?_⟩
      rintro b' y' tail' h
      simp at h
      omega
    · rintro ⟨h1, h2⟩
      exact ⟨h2 b y tail rfl, h1⟩

/-- A write keeps the canonical form. -/
theorem memWf_memWrite (m : Mem) (a : Nat) (v : Byte) (h : memWf m = true) : memWf (memWrite m a v) = true := by
  induction m with
  | nil => rfl
  | cons c rest ih =>
    obtain ⟨b, x⟩ := c
    obtain ⟨hr, hb⟩ := (memWf_cons b x rest).1 h
    simp only [memWrite]
    split
    · next hab =>
      refine (memWf_cons _ _ _).2 ⟨h, ?_⟩
      rintro b' y tail heq
      simp at heq
      omega
    · split
      · next hab => subst hab; exact (memWf_cons _ _ _).2 ⟨hr, hb⟩
      · next h1 h2 =>
        refine (memWf_cons _ _ _).2 ⟨ih hr, ?_⟩
        intro b' y tail heq
        rcases memWrite_head rest a v b' y tail heq with h' | ⟨z, t2, h'⟩
        · omega
        · exact hb b' z t2 h'

/-- A write of a byte sequence keeps the canonical form. -/
theorem memWf_memWriteBytes (bytes : List Byte) (m : Mem) (off : Nat) (h : memWf m = true) :
    memWf (memWriteBytes m off bytes) = true := by
  induction bytes generalizing m off with
  | nil => exact h
  | cons v vs ih => exact ih _ _ (memWf_memWrite _ _ _ h)

/-- Filling a buffer keeps the canonical form. -/
theorem memWf_memFill (cap : Option Nat) (m : Mem) (bytes : List Byte) (h : memWf m = true) :
    memWf (memFill cap m bytes) = true :=
  memWf_memWriteBytes _ _ _ h

/-- The buffers of the reset state have the canonical form. -/
theorem reset_cells_wf (b : Buffer) : memWf (State.reset.cells b) = true := by
  cases b <;> rfl

/-- The offsets a write leaves listed: the old ones and the one written. -/
theorem mem_memWrite (m : Mem) (a : Nat) (v : Byte) (cell : Nat × Byte) (h : cell ∈ memWrite m a v) :
    cell ∈ m ∨ cell.1 = a := by
  induction m with
  | nil => simp [memWrite] at h; simp [h]
  | cons c rest ih =>
    obtain ⟨b, x⟩ := c
    simp only [memWrite] at h
    split at h
    · simp at h; rcases h with h | h | h <;> simp [h]
    · split at h
      · simp at h; rcases h with h | h <;> simp [h]
      · simp at h
        rcases h with h | h
        · simp [h]
        · rcases ih h with h | h <;> simp [h]

end Sys2Proof.Machine
end

