-- ==== Sys2Proof/Laws/State.lean ====
section
/-! SUPPORT. Every field after every named update of the state, each true by unfolding, so that no proof unfolds a record
update. -/

namespace Sys2Proof.Machine

variable (s : State)

/-! ### `issue` -/

@[simp] theorem issue_busy : s.issue.busy = true := rfl
@[simp] theorem issue_sv : s.issue.sv = s.sv := rfl
@[simp] theorem issue_err : s.issue.err = s.err := rfl
@[simp] theorem issue_klen : s.issue.klen = s.klen := rfl
@[simp] theorem issue_dlen : s.issue.dlen = s.dlen := rfl
@[simp] theorem issue_ivlen : s.issue.ivlen = s.ivlen := rfl
@[simp] theorem issue_olen : s.issue.olen = s.olen := rfl
@[simp] theorem issue_nk : s.issue.nk = s.nk := rfl
@[simp] theorem issue_nr : s.issue.nr = s.nr := rfl
@[simp] theorem issue_w : s.issue.w = s.w := rfl
@[simp] theorem issue_mat : s.issue.mat = s.mat := rfl
@[simp] theorem issue_cv : s.issue.cv = s.cv := rfl
@[simp] theorem issue_keybuf : s.issue.keybuf = s.keybuf := rfl
@[simp] theorem issue_din : s.issue.din = s.din := rfl
@[simp] theorem issue_ivbuf : s.issue.ivbuf = s.ivbuf := rfl
@[simp] theorem issue_dout : s.issue.dout = s.dout := rfl
@[simp] theorem issue_maxDlen : s.issue.maxDlen = s.maxDlen := rfl
@[simp] theorem issue_blkIn : s.issue.blkIn = s.blkIn := rfl
@[simp] theorem issue_blkOut : s.issue.blkOut = s.blkOut := rfl
@[simp] theorem issue_seq : s.issue.seq = s.seq := rfl
@[simp] theorem issue_host : s.issue.host = s.host := rfl
@[simp] theorem issue_rdata : s.issue.rdata = s.rdata := rfl
@[simp] theorem issue_fresh : s.issue.fresh = s.fresh := rfl
@[simp] theorem issue_epoch : s.issue.epoch = s.epoch := rfl

/-! ### `complete` -/

@[simp] theorem complete_busy (n : Nat) : (s.complete n).busy = false := rfl
@[simp] theorem complete_sv (n : Nat) : (s.complete n).sv = s.sv := rfl
@[simp] theorem complete_err (n : Nat) : (s.complete n).err = .none := rfl
@[simp] theorem complete_klen (n : Nat) : (s.complete n).klen = s.klen := rfl
@[simp] theorem complete_dlen (n : Nat) : (s.complete n).dlen = s.dlen := rfl
@[simp] theorem complete_ivlen (n : Nat) : (s.complete n).ivlen = s.ivlen := rfl
@[simp] theorem complete_olen (n : Nat) : (s.complete n).olen = n := rfl
@[simp] theorem complete_nk (n : Nat) : (s.complete n).nk = s.nk := rfl
@[simp] theorem complete_nr (n : Nat) : (s.complete n).nr = s.nr := rfl
@[simp] theorem complete_w (n : Nat) : (s.complete n).w = s.w := rfl
@[simp] theorem complete_mat (n : Nat) : (s.complete n).mat = s.mat := rfl
@[simp] theorem complete_cv (n : Nat) : (s.complete n).cv = s.cv := rfl
@[simp] theorem complete_keybuf (n : Nat) : (s.complete n).keybuf = s.keybuf := rfl
@[simp] theorem complete_din (n : Nat) : (s.complete n).din = s.din := rfl
@[simp] theorem complete_ivbuf (n : Nat) : (s.complete n).ivbuf = s.ivbuf := rfl
@[simp] theorem complete_dout (n : Nat) : (s.complete n).dout = s.dout := rfl
@[simp] theorem complete_maxDlen (n : Nat) : (s.complete n).maxDlen = s.maxDlen := rfl
@[simp] theorem complete_blkIn (n : Nat) : (s.complete n).blkIn = s.blkIn := rfl
@[simp] theorem complete_blkOut (n : Nat) : (s.complete n).blkOut = s.blkOut := rfl
@[simp] theorem complete_seq (n : Nat) : (s.complete n).seq = s.seq := rfl
@[simp] theorem complete_host (n : Nat) : (s.complete n).host = s.host := rfl
@[simp] theorem complete_rdata (n : Nat) : (s.complete n).rdata = s.rdata := rfl
@[simp] theorem complete_fresh (n : Nat) : (s.complete n).fresh = s.fresh := rfl
@[simp] theorem complete_epoch (n : Nat) : (s.complete n).epoch = s.epoch := rfl

/-! ### `raiseError` -/

@[simp] theorem raiseError_busy (k : ErrKind) : (s.raiseError k).busy = false := rfl
@[simp] theorem raiseError_sv (k : ErrKind) : (s.raiseError k).sv = s.sv := rfl
@[simp] theorem raiseError_err (k : ErrKind) : (s.raiseError k).err = k := rfl
@[simp] theorem raiseError_klen (k : ErrKind) : (s.raiseError k).klen = s.klen := rfl
@[simp] theorem raiseError_dlen (k : ErrKind) : (s.raiseError k).dlen = s.dlen := rfl
@[simp] theorem raiseError_ivlen (k : ErrKind) : (s.raiseError k).ivlen = s.ivlen := rfl
@[simp] theorem raiseError_olen (k : ErrKind) : (s.raiseError k).olen = 0 := rfl
@[simp] theorem raiseError_nk (k : ErrKind) : (s.raiseError k).nk = s.nk := rfl
@[simp] theorem raiseError_nr (k : ErrKind) : (s.raiseError k).nr = s.nr := rfl
@[simp] theorem raiseError_w (k : ErrKind) : (s.raiseError k).w = s.w := rfl
@[simp] theorem raiseError_mat (k : ErrKind) : (s.raiseError k).mat = s.mat := rfl
@[simp] theorem raiseError_cv (k : ErrKind) : (s.raiseError k).cv = s.cv := rfl
@[simp] theorem raiseError_keybuf (k : ErrKind) : (s.raiseError k).keybuf = s.keybuf := rfl
@[simp] theorem raiseError_din (k : ErrKind) : (s.raiseError k).din = s.din := rfl
@[simp] theorem raiseError_ivbuf (k : ErrKind) : (s.raiseError k).ivbuf = s.ivbuf := rfl
@[simp] theorem raiseError_dout (k : ErrKind) : (s.raiseError k).dout = s.dout := rfl
@[simp] theorem raiseError_maxDlen (k : ErrKind) : (s.raiseError k).maxDlen = s.maxDlen := rfl
@[simp] theorem raiseError_blkIn (k : ErrKind) : (s.raiseError k).blkIn = s.blkIn := rfl
@[simp] theorem raiseError_blkOut (k : ErrKind) : (s.raiseError k).blkOut = s.blkOut := rfl
@[simp] theorem raiseError_seq (k : ErrKind) : (s.raiseError k).seq = s.seq := rfl
@[simp] theorem raiseError_host (k : ErrKind) : (s.raiseError k).host = s.host := rfl
@[simp] theorem raiseError_rdata (k : ErrKind) : (s.raiseError k).rdata = s.rdata := rfl
@[simp] theorem raiseError_fresh (k : ErrKind) : (s.raiseError k).fresh = s.fresh := rfl
@[simp] theorem raiseError_epoch (k : ErrKind) : (s.raiseError k).epoch = s.epoch := rfl

/-! ### `setSv` -/

@[simp] theorem setSv_busy (b : Bool) : (s.setSv b).busy = s.busy := rfl
@[simp] theorem setSv_sv (b : Bool) : (s.setSv b).sv = b := rfl
@[simp] theorem setSv_err (b : Bool) : (s.setSv b).err = s.err := rfl
@[simp] theorem setSv_klen (b : Bool) : (s.setSv b).klen = s.klen := rfl
@[simp] theorem setSv_dlen (b : Bool) : (s.setSv b).dlen = s.dlen := rfl
@[simp] theorem setSv_ivlen (b : Bool) : (s.setSv b).ivlen = s.ivlen := rfl
@[simp] theorem setSv_olen (b : Bool) : (s.setSv b).olen = s.olen := rfl
@[simp] theorem setSv_nk (b : Bool) : (s.setSv b).nk = s.nk := rfl
@[simp] theorem setSv_nr (b : Bool) : (s.setSv b).nr = s.nr := rfl
@[simp] theorem setSv_w (b : Bool) : (s.setSv b).w = s.w := rfl
@[simp] theorem setSv_mat (b : Bool) : (s.setSv b).mat = s.mat := rfl
@[simp] theorem setSv_cv (b : Bool) : (s.setSv b).cv = s.cv := rfl
@[simp] theorem setSv_keybuf (b : Bool) : (s.setSv b).keybuf = s.keybuf := rfl
@[simp] theorem setSv_din (b : Bool) : (s.setSv b).din = s.din := rfl
@[simp] theorem setSv_ivbuf (b : Bool) : (s.setSv b).ivbuf = s.ivbuf := rfl
@[simp] theorem setSv_dout (b : Bool) : (s.setSv b).dout = s.dout := rfl
@[simp] theorem setSv_maxDlen (b : Bool) : (s.setSv b).maxDlen = s.maxDlen := rfl
@[simp] theorem setSv_blkIn (b : Bool) : (s.setSv b).blkIn = s.blkIn := rfl
@[simp] theorem setSv_blkOut (b : Bool) : (s.setSv b).blkOut = s.blkOut := rfl
@[simp] theorem setSv_seq (b : Bool) : (s.setSv b).seq = s.seq := rfl
@[simp] theorem setSv_host (b : Bool) : (s.setSv b).host = s.host := rfl
@[simp] theorem setSv_rdata (b : Bool) : (s.setSv b).rdata = s.rdata := rfl
@[simp] theorem setSv_fresh (b : Bool) : (s.setSv b).fresh = s.fresh := rfl
@[simp] theorem setSv_epoch (b : Bool) : (s.setSv b).epoch = s.epoch := rfl

/-! ### `storeOut` -/

@[simp] theorem storeOut_busy (off : Nat) (x : List Byte) : (s.storeOut off x).busy = s.busy := rfl
@[simp] theorem storeOut_sv (off : Nat) (x : List Byte) : (s.storeOut off x).sv = s.sv := rfl
@[simp] theorem storeOut_err (off : Nat) (x : List Byte) : (s.storeOut off x).err = s.err := rfl
@[simp] theorem storeOut_klen (off : Nat) (x : List Byte) : (s.storeOut off x).klen = s.klen := rfl
@[simp] theorem storeOut_dlen (off : Nat) (x : List Byte) : (s.storeOut off x).dlen = s.dlen := rfl
@[simp] theorem storeOut_ivlen (off : Nat) (x : List Byte) : (s.storeOut off x).ivlen = s.ivlen := rfl
@[simp] theorem storeOut_olen (off : Nat) (x : List Byte) : (s.storeOut off x).olen = s.olen := rfl
@[simp] theorem storeOut_nk (off : Nat) (x : List Byte) : (s.storeOut off x).nk = s.nk := rfl
@[simp] theorem storeOut_nr (off : Nat) (x : List Byte) : (s.storeOut off x).nr = s.nr := rfl
@[simp] theorem storeOut_w (off : Nat) (x : List Byte) : (s.storeOut off x).w = s.w := rfl
@[simp] theorem storeOut_mat (off : Nat) (x : List Byte) : (s.storeOut off x).mat = s.mat := rfl
@[simp] theorem storeOut_cv (off : Nat) (x : List Byte) : (s.storeOut off x).cv = s.cv := rfl
@[simp] theorem storeOut_keybuf (off : Nat) (x : List Byte) : (s.storeOut off x).keybuf = s.keybuf := rfl
@[simp] theorem storeOut_din (off : Nat) (x : List Byte) : (s.storeOut off x).din = s.din := rfl
@[simp] theorem storeOut_ivbuf (off : Nat) (x : List Byte) : (s.storeOut off x).ivbuf = s.ivbuf := rfl
@[simp] theorem storeOut_dout (off : Nat) (x : List Byte) : (s.storeOut off x).dout = memWriteBytes s.dout off x := rfl
@[simp] theorem storeOut_maxDlen (off : Nat) (x : List Byte) : (s.storeOut off x).maxDlen = s.maxDlen := rfl
@[simp] theorem storeOut_blkIn (off : Nat) (x : List Byte) : (s.storeOut off x).blkIn = s.blkIn := rfl
@[simp] theorem storeOut_blkOut (off : Nat) (x : List Byte) : (s.storeOut off x).blkOut = s.blkOut := rfl
@[simp] theorem storeOut_seq (off : Nat) (x : List Byte) : (s.storeOut off x).seq = s.seq := rfl
@[simp] theorem storeOut_host (off : Nat) (x : List Byte) : (s.storeOut off x).host = s.host := rfl
@[simp] theorem storeOut_rdata (off : Nat) (x : List Byte) : (s.storeOut off x).rdata = s.rdata := rfl
@[simp] theorem storeOut_fresh (off : Nat) (x : List Byte) : (s.storeOut off x).fresh = s.fresh := rfl
@[simp] theorem storeOut_epoch (off : Nat) (x : List Byte) : (s.storeOut off x).epoch = s.epoch := rfl

/-! ### `dropMat` -/

@[simp] theorem dropMat_busy : s.dropMat.busy = s.busy := rfl
@[simp] theorem dropMat_sv : s.dropMat.sv = s.sv := rfl
@[simp] theorem dropMat_err : s.dropMat.err = s.err := rfl
@[simp] theorem dropMat_klen : s.dropMat.klen = s.klen := rfl
@[simp] theorem dropMat_dlen : s.dropMat.dlen = s.dlen := rfl
@[simp] theorem dropMat_ivlen : s.dropMat.ivlen = s.ivlen := rfl
@[simp] theorem dropMat_olen : s.dropMat.olen = s.olen := rfl
@[simp] theorem dropMat_nk : s.dropMat.nk = s.nk := rfl
@[simp] theorem dropMat_nr : s.dropMat.nr = s.nr := rfl
@[simp] theorem dropMat_w : s.dropMat.w = s.w := rfl
@[simp] theorem dropMat_mat : s.dropMat.mat = freeMat s.fresh := rfl
@[simp] theorem dropMat_cv : s.dropMat.cv = s.cv := rfl
@[simp] theorem dropMat_keybuf : s.dropMat.keybuf = s.keybuf := rfl
@[simp] theorem dropMat_din : s.dropMat.din = s.din := rfl
@[simp] theorem dropMat_ivbuf : s.dropMat.ivbuf = s.ivbuf := rfl
@[simp] theorem dropMat_dout : s.dropMat.dout = s.dout := rfl
@[simp] theorem dropMat_maxDlen : s.dropMat.maxDlen = s.maxDlen := rfl
@[simp] theorem dropMat_blkIn : s.dropMat.blkIn = s.blkIn := rfl
@[simp] theorem dropMat_blkOut : s.dropMat.blkOut = s.blkOut := rfl
@[simp] theorem dropMat_seq : s.dropMat.seq = s.seq := rfl
@[simp] theorem dropMat_host : s.dropMat.host = s.host := rfl
@[simp] theorem dropMat_rdata : s.dropMat.rdata = s.rdata := rfl
@[simp] theorem dropMat_fresh : s.dropMat.fresh = s.fresh + 16 := rfl
@[simp] theorem dropMat_epoch : s.dropMat.epoch = s.epoch := rfl

/-! ### `dropChain` -/

@[simp] theorem dropChain_busy : s.dropChain.busy = s.busy := rfl
@[simp] theorem dropChain_sv : s.dropChain.sv = s.sv := rfl
@[simp] theorem dropChain_err : s.dropChain.err = s.err := rfl
@[simp] theorem dropChain_klen : s.dropChain.klen = s.klen := rfl
@[simp] theorem dropChain_dlen : s.dropChain.dlen = s.dlen := rfl
@[simp] theorem dropChain_ivlen : s.dropChain.ivlen = s.ivlen := rfl
@[simp] theorem dropChain_olen : s.dropChain.olen = s.olen := rfl
@[simp] theorem dropChain_nk : s.dropChain.nk = s.nk := rfl
@[simp] theorem dropChain_nr : s.dropChain.nr = s.nr := rfl
@[simp] theorem dropChain_w : s.dropChain.w = s.w := rfl
@[simp] theorem dropChain_mat : s.dropChain.mat = s.mat := rfl
@[simp] theorem dropChain_cv : s.dropChain.cv = freeBlock s.fresh := rfl
@[simp] theorem dropChain_keybuf : s.dropChain.keybuf = s.keybuf := rfl
@[simp] theorem dropChain_din : s.dropChain.din = s.din := rfl
@[simp] theorem dropChain_ivbuf : s.dropChain.ivbuf = s.ivbuf := rfl
@[simp] theorem dropChain_dout : s.dropChain.dout = s.dout := rfl
@[simp] theorem dropChain_maxDlen : s.dropChain.maxDlen = s.maxDlen := rfl
@[simp] theorem dropChain_blkIn : s.dropChain.blkIn = s.blkIn := rfl
@[simp] theorem dropChain_blkOut : s.dropChain.blkOut = s.blkOut := rfl
@[simp] theorem dropChain_seq : s.dropChain.seq = s.seq := rfl
@[simp] theorem dropChain_host : s.dropChain.host = s.host := rfl
@[simp] theorem dropChain_rdata : s.dropChain.rdata = s.rdata := rfl
@[simp] theorem dropChain_fresh : s.dropChain.fresh = s.fresh + 16 := rfl
@[simp] theorem dropChain_epoch : s.dropChain.epoch = s.epoch := rfl

/-! ### `dropSched` -/

@[simp] theorem dropSched_busy : s.dropSched.busy = s.busy := rfl
@[simp] theorem dropSched_sv : s.dropSched.sv = s.sv := rfl
@[simp] theorem dropSched_err : s.dropSched.err = s.err := rfl
@[simp] theorem dropSched_klen : s.dropSched.klen = s.klen := rfl
@[simp] theorem dropSched_dlen : s.dropSched.dlen = s.dlen := rfl
@[simp] theorem dropSched_ivlen : s.dropSched.ivlen = s.ivlen := rfl
@[simp] theorem dropSched_olen : s.dropSched.olen = s.olen := rfl
@[simp] theorem dropSched_nk : s.dropSched.nk = freeNibble (s.fresh + 240) := rfl
@[simp] theorem dropSched_nr : s.dropSched.nr = freeNibble (s.fresh + 241) := rfl
@[simp] theorem dropSched_w : s.dropSched.w = freeSched s.fresh := rfl
@[simp] theorem dropSched_mat : s.dropSched.mat = s.mat := rfl
@[simp] theorem dropSched_cv : s.dropSched.cv = s.cv := rfl
@[simp] theorem dropSched_keybuf : s.dropSched.keybuf = s.keybuf := rfl
@[simp] theorem dropSched_din : s.dropSched.din = s.din := rfl
@[simp] theorem dropSched_ivbuf : s.dropSched.ivbuf = s.ivbuf := rfl
@[simp] theorem dropSched_dout : s.dropSched.dout = s.dout := rfl
@[simp] theorem dropSched_maxDlen : s.dropSched.maxDlen = s.maxDlen := rfl
@[simp] theorem dropSched_blkIn : s.dropSched.blkIn = s.blkIn := rfl
@[simp] theorem dropSched_blkOut : s.dropSched.blkOut = s.blkOut := rfl
@[simp] theorem dropSched_seq : s.dropSched.seq = s.seq := rfl
@[simp] theorem dropSched_host : s.dropSched.host = s.host := rfl
@[simp] theorem dropSched_rdata : s.dropSched.rdata = s.rdata := rfl
@[simp] theorem dropSched_fresh : s.dropSched.fresh = s.fresh + 242 := rfl
@[simp] theorem dropSched_epoch : s.dropSched.epoch = s.epoch := rfl

/-! ### `deriveColumn` -/

@[simp] theorem deriveColumn_busy (c : Nat) : (s.deriveColumn c).busy = s.busy := rfl
@[simp] theorem deriveColumn_sv (c : Nat) : (s.deriveColumn c).sv = s.sv := rfl
@[simp] theorem deriveColumn_err (c : Nat) : (s.deriveColumn c).err = s.err := rfl
@[simp] theorem deriveColumn_klen (c : Nat) : (s.deriveColumn c).klen = s.klen := rfl
@[simp] theorem deriveColumn_dlen (c : Nat) : (s.deriveColumn c).dlen = s.dlen := rfl
@[simp] theorem deriveColumn_ivlen (c : Nat) : (s.deriveColumn c).ivlen = s.ivlen := rfl
@[simp] theorem deriveColumn_olen (c : Nat) : (s.deriveColumn c).olen = s.olen := rfl
@[simp] theorem deriveColumn_nk (c : Nat) : (s.deriveColumn c).nk = s.nk := rfl
@[simp] theorem deriveColumn_nr (c : Nat) : (s.deriveColumn c).nr = s.nr := rfl
@[simp] theorem deriveColumn_mat (c : Nat) : (s.deriveColumn c).mat = s.mat := rfl
@[simp] theorem deriveColumn_cv (c : Nat) : (s.deriveColumn c).cv = s.cv := rfl
@[simp] theorem deriveColumn_keybuf (c : Nat) : (s.deriveColumn c).keybuf = s.keybuf := rfl
@[simp] theorem deriveColumn_din (c : Nat) : (s.deriveColumn c).din = s.din := rfl
@[simp] theorem deriveColumn_ivbuf (c : Nat) : (s.deriveColumn c).ivbuf = s.ivbuf := rfl
@[simp] theorem deriveColumn_dout (c : Nat) : (s.deriveColumn c).dout = s.dout := rfl
@[simp] theorem deriveColumn_maxDlen (c : Nat) : (s.deriveColumn c).maxDlen = s.maxDlen := rfl
@[simp] theorem deriveColumn_blkIn (c : Nat) : (s.deriveColumn c).blkIn = s.blkIn := rfl
@[simp] theorem deriveColumn_blkOut (c : Nat) : (s.deriveColumn c).blkOut = s.blkOut := rfl
@[simp] theorem deriveColumn_seq (c : Nat) : (s.deriveColumn c).seq = s.seq := rfl
@[simp] theorem deriveColumn_host (c : Nat) : (s.deriveColumn c).host = s.host := rfl
@[simp] theorem deriveColumn_rdata (c : Nat) : (s.deriveColumn c).rdata = s.rdata := rfl
@[simp] theorem deriveColumn_epoch (c : Nat) : (s.deriveColumn c).epoch = s.epoch := rfl
@[simp] theorem deriveColumn_w (c : Nat) : (s.deriveColumn c).w =
    schedSet s.w c (if columnCountOk s.nk then nextColumn s.w s.nk.toNat c else freeColumn s.fresh) := rfl
@[simp] theorem deriveColumn_fresh (c : Nat) :
    (s.deriveColumn c).fresh = if columnCountOk s.nk then s.fresh else s.fresh + 4 := rfl

/-! ### `onMat` -/

@[simp] theorem onMat_busy (f : Mat → Mat) : (s.onMat f).busy = s.busy := rfl
@[simp] theorem onMat_sv (f : Mat → Mat) : (s.onMat f).sv = s.sv := rfl
@[simp] theorem onMat_err (f : Mat → Mat) : (s.onMat f).err = s.err := rfl
@[simp] theorem onMat_klen (f : Mat → Mat) : (s.onMat f).klen = s.klen := rfl
@[simp] theorem onMat_dlen (f : Mat → Mat) : (s.onMat f).dlen = s.dlen := rfl
@[simp] theorem onMat_ivlen (f : Mat → Mat) : (s.onMat f).ivlen = s.ivlen := rfl
@[simp] theorem onMat_olen (f : Mat → Mat) : (s.onMat f).olen = s.olen := rfl
@[simp] theorem onMat_nk (f : Mat → Mat) : (s.onMat f).nk = s.nk := rfl
@[simp] theorem onMat_nr (f : Mat → Mat) : (s.onMat f).nr = s.nr := rfl
@[simp] theorem onMat_w (f : Mat → Mat) : (s.onMat f).w = s.w := rfl
@[simp] theorem onMat_mat (f : Mat → Mat) : (s.onMat f).mat = f s.mat := rfl
@[simp] theorem onMat_cv (f : Mat → Mat) : (s.onMat f).cv = s.cv := rfl
@[simp] theorem onMat_keybuf (f : Mat → Mat) : (s.onMat f).keybuf = s.keybuf := rfl
@[simp] theorem onMat_din (f : Mat → Mat) : (s.onMat f).din = s.din := rfl
@[simp] theorem onMat_ivbuf (f : Mat → Mat) : (s.onMat f).ivbuf = s.ivbuf := rfl
@[simp] theorem onMat_dout (f : Mat → Mat) : (s.onMat f).dout = s.dout := rfl
@[simp] theorem onMat_maxDlen (f : Mat → Mat) : (s.onMat f).maxDlen = s.maxDlen := rfl
@[simp] theorem onMat_blkIn (f : Mat → Mat) : (s.onMat f).blkIn = s.blkIn := rfl
@[simp] theorem onMat_blkOut (f : Mat → Mat) : (s.onMat f).blkOut = s.blkOut := rfl
@[simp] theorem onMat_seq (f : Mat → Mat) : (s.onMat f).seq = s.seq := rfl
@[simp] theorem onMat_host (f : Mat → Mat) : (s.onMat f).host = s.host := rfl
@[simp] theorem onMat_rdata (f : Mat → Mat) : (s.onMat f).rdata = s.rdata := rfl
@[simp] theorem onMat_fresh (f : Mat → Mat) : (s.onMat f).fresh = s.fresh := rfl
@[simp] theorem onMat_epoch (f : Mat → Mat) : (s.onMat f).epoch = s.epoch := rfl

/-! ### `loadKey` -/

@[simp] theorem loadKey_busy : s.loadKey.busy = s.busy := rfl
@[simp] theorem loadKey_sv : s.loadKey.sv = s.sv := rfl
@[simp] theorem loadKey_err : s.loadKey.err = s.err := rfl
@[simp] theorem loadKey_klen : s.loadKey.klen = s.klen := rfl
@[simp] theorem loadKey_dlen : s.loadKey.dlen = s.dlen := rfl
@[simp] theorem loadKey_ivlen : s.loadKey.ivlen = s.ivlen := rfl
@[simp] theorem loadKey_olen : s.loadKey.olen = s.olen := rfl
@[simp] theorem loadKey_nk : s.loadKey.nk = BitVec.ofNat 4 (s.klen / 4) := rfl
@[simp] theorem loadKey_nr : s.loadKey.nr = BitVec.ofNat 4 (s.klen / 4 + 6) := rfl
@[simp] theorem loadKey_w :
    s.loadKey.w = (List.range (s.klen / 4)).foldl (fun w c => schedSet w c (s.keyColumn c)) s.w := rfl
@[simp] theorem loadKey_mat : s.loadKey.mat = s.mat := rfl
@[simp] theorem loadKey_cv : s.loadKey.cv = s.cv := rfl
@[simp] theorem loadKey_keybuf : s.loadKey.keybuf = s.keybuf := rfl
@[simp] theorem loadKey_din : s.loadKey.din = s.din := rfl
@[simp] theorem loadKey_ivbuf : s.loadKey.ivbuf = s.ivbuf := rfl
@[simp] theorem loadKey_dout : s.loadKey.dout = s.dout := rfl
@[simp] theorem loadKey_maxDlen : s.loadKey.maxDlen = s.maxDlen := rfl
@[simp] theorem loadKey_blkIn : s.loadKey.blkIn = s.blkIn := rfl
@[simp] theorem loadKey_blkOut : s.loadKey.blkOut = s.blkOut := rfl
@[simp] theorem loadKey_seq : s.loadKey.seq = s.seq := rfl
@[simp] theorem loadKey_host : s.loadKey.host = s.host := rfl
@[simp] theorem loadKey_rdata : s.loadKey.rdata = s.rdata := rfl
@[simp] theorem loadKey_fresh : s.loadKey.fresh = s.fresh := rfl
@[simp] theorem loadKey_epoch : s.loadKey.epoch = s.epoch := rfl

/-! ### `expandKey` -/

@[simp] theorem expandKey_busy : s.expandKey.busy = s.busy := rfl
@[simp] theorem expandKey_sv : s.expandKey.sv = s.sv := rfl
@[simp] theorem expandKey_err : s.expandKey.err = s.err := rfl
@[simp] theorem expandKey_klen : s.expandKey.klen = s.klen := rfl
@[simp] theorem expandKey_dlen : s.expandKey.dlen = s.dlen := rfl
@[simp] theorem expandKey_ivlen : s.expandKey.ivlen = s.ivlen := rfl
@[simp] theorem expandKey_olen : s.expandKey.olen = s.olen := rfl
@[simp] theorem expandKey_nk : s.expandKey.nk = BitVec.ofNat 4 (s.klen / 4) := rfl
@[simp] theorem expandKey_nr : s.expandKey.nr = BitVec.ofNat 4 (s.klen / 4 + 6) := rfl
@[simp] theorem expandKey_w : s.expandKey.w = expandColumns s.loadKey.nk s.loadKey.nr s.loadKey.w := rfl
@[simp] theorem expandKey_mat : s.expandKey.mat = s.mat := rfl
@[simp] theorem expandKey_cv : s.expandKey.cv = s.cv := rfl
@[simp] theorem expandKey_keybuf : s.expandKey.keybuf = s.keybuf := rfl
@[simp] theorem expandKey_din : s.expandKey.din = s.din := rfl
@[simp] theorem expandKey_ivbuf : s.expandKey.ivbuf = s.ivbuf := rfl
@[simp] theorem expandKey_dout : s.expandKey.dout = s.dout := rfl
@[simp] theorem expandKey_maxDlen : s.expandKey.maxDlen = s.maxDlen := rfl
@[simp] theorem expandKey_blkIn : s.expandKey.blkIn = s.blkIn := rfl
@[simp] theorem expandKey_blkOut : s.expandKey.blkOut = s.blkOut := rfl
@[simp] theorem expandKey_seq : s.expandKey.seq = s.seq := rfl
@[simp] theorem expandKey_host : s.expandKey.host = s.host := rfl
@[simp] theorem expandKey_rdata : s.expandKey.rdata = s.rdata := rfl
@[simp] theorem expandKey_fresh : s.expandKey.fresh = s.fresh := rfl
@[simp] theorem expandKey_epoch : s.expandKey.epoch = s.epoch := rfl

/-! ### `answer` -/

@[simp] theorem answer_busy (v n : Nat) : (s.answer v n).busy = s.busy := rfl
@[simp] theorem answer_sv (v n : Nat) : (s.answer v n).sv = s.sv := rfl
@[simp] theorem answer_err (v n : Nat) : (s.answer v n).err = s.err := rfl
@[simp] theorem answer_klen (v n : Nat) : (s.answer v n).klen = s.klen := rfl
@[simp] theorem answer_dlen (v n : Nat) : (s.answer v n).dlen = s.dlen := rfl
@[simp] theorem answer_ivlen (v n : Nat) : (s.answer v n).ivlen = s.ivlen := rfl
@[simp] theorem answer_olen (v n : Nat) : (s.answer v n).olen = s.olen := rfl
@[simp] theorem answer_nk (v n : Nat) : (s.answer v n).nk = s.nk := rfl
@[simp] theorem answer_nr (v n : Nat) : (s.answer v n).nr = s.nr := rfl
@[simp] theorem answer_w (v n : Nat) : (s.answer v n).w = s.w := rfl
@[simp] theorem answer_mat (v n : Nat) : (s.answer v n).mat = s.mat := rfl
@[simp] theorem answer_cv (v n : Nat) : (s.answer v n).cv = s.cv := rfl
@[simp] theorem answer_keybuf (v n : Nat) : (s.answer v n).keybuf = s.keybuf := rfl
@[simp] theorem answer_din (v n : Nat) : (s.answer v n).din = s.din := rfl
@[simp] theorem answer_ivbuf (v n : Nat) : (s.answer v n).ivbuf = s.ivbuf := rfl
@[simp] theorem answer_dout (v n : Nat) : (s.answer v n).dout = s.dout := rfl
@[simp] theorem answer_maxDlen (v n : Nat) : (s.answer v n).maxDlen = s.maxDlen := rfl
@[simp] theorem answer_blkIn (v n : Nat) : (s.answer v n).blkIn = s.blkIn := rfl
@[simp] theorem answer_blkOut (v n : Nat) : (s.answer v n).blkOut = s.blkOut := rfl
@[simp] theorem answer_seq (v n : Nat) : (s.answer v n).seq = s.seq := rfl
@[simp] theorem answer_host (v n : Nat) : (s.answer v n).host = s.host := rfl
@[simp] theorem answer_rdata (v n : Nat) : (s.answer v n).rdata = v := rfl
@[simp] theorem answer_fresh (v n : Nat) : (s.answer v n).fresh = s.fresh + n := rfl
@[simp] theorem answer_epoch (v n : Nat) : (s.answer v n).epoch = s.epoch := rfl

/-! ### `bulkEpilogue` and the cells of a buffer -/

@[simp] theorem bulkEpilogue_busy (b : Bool) : (s.bulkEpilogue b).busy = false := by
  cases b <;> rfl
@[simp] theorem bulkEpilogue_sv (b : Bool) : (s.bulkEpilogue b).sv = false := by
  cases b <;> rfl
@[simp] theorem bulkEpilogue_err (b : Bool) : (s.bulkEpilogue b).err = .none := by
  cases b <;> rfl
@[simp] theorem bulkEpilogue_klen (b : Bool) : (s.bulkEpilogue b).klen = s.klen := by
  cases b <;> rfl
@[simp] theorem bulkEpilogue_dlen (b : Bool) : (s.bulkEpilogue b).dlen = s.dlen := by
  cases b <;> rfl
@[simp] theorem bulkEpilogue_ivlen (b : Bool) : (s.bulkEpilogue b).ivlen = s.ivlen := by
  cases b <;> rfl
@[simp] theorem bulkEpilogue_olen (b : Bool) : (s.bulkEpilogue b).olen = s.dlen := by
  cases b <;> rfl
@[simp] theorem bulkEpilogue_nk (b : Bool) : (s.bulkEpilogue b).nk = freeNibble (s.fresh + 240) := by
  cases b <;> rfl
@[simp] theorem bulkEpilogue_nr (b : Bool) : (s.bulkEpilogue b).nr = freeNibble (s.fresh + 241) := by
  cases b <;> rfl
@[simp] theorem bulkEpilogue_w (b : Bool) : (s.bulkEpilogue b).w = freeSched s.fresh := by
  cases b <;> rfl
@[simp] theorem bulkEpilogue_mat (b : Bool) : (s.bulkEpilogue b).mat = freeMat (s.fresh + 242) := by
  cases b <;> rfl
@[simp] theorem bulkEpilogue_cv (b : Bool) : (s.bulkEpilogue b).cv = if b then freeBlock (s.fresh + 258) else s.cv := by
  cases b <;> rfl
@[simp] theorem bulkEpilogue_keybuf (b : Bool) : (s.bulkEpilogue b).keybuf = s.keybuf := by
  cases b <;> rfl
@[simp] theorem bulkEpilogue_din (b : Bool) : (s.bulkEpilogue b).din = s.din := by
  cases b <;> rfl
@[simp] theorem bulkEpilogue_ivbuf (b : Bool) : (s.bulkEpilogue b).ivbuf = s.ivbuf := by
  cases b <;> rfl
@[simp] theorem bulkEpilogue_dout (b : Bool) : (s.bulkEpilogue b).dout = s.dout := by
  cases b <;> rfl
@[simp] theorem bulkEpilogue_maxDlen (b : Bool) : (s.bulkEpilogue b).maxDlen = s.maxDlen := by
  cases b <;> rfl
@[simp] theorem bulkEpilogue_blkIn (b : Bool) : (s.bulkEpilogue b).blkIn = s.blkIn := by
  cases b <;> rfl
@[simp] theorem bulkEpilogue_blkOut (b : Bool) : (s.bulkEpilogue b).blkOut = s.blkOut := by
  cases b <;> rfl
@[simp] theorem bulkEpilogue_seq (b : Bool) : (s.bulkEpilogue b).seq = s.seq := by
  cases b <;> rfl
@[simp] theorem bulkEpilogue_host (b : Bool) : (s.bulkEpilogue b).host = s.host := by
  cases b <;> rfl
@[simp] theorem bulkEpilogue_rdata (b : Bool) : (s.bulkEpilogue b).rdata = s.rdata := by
  cases b <;> rfl
@[simp] theorem bulkEpilogue_fresh (b : Bool) : (s.bulkEpilogue b).fresh = if b then s.fresh + 274 else s.fresh + 258 := by
  cases b <;> rfl
@[simp] theorem bulkEpilogue_epoch (b : Bool) : (s.bulkEpilogue b).epoch = s.epoch := by
  cases b <;> rfl

@[simp] theorem cells_keybuf : s.cells .keybuf = s.keybuf := rfl
@[simp] theorem cells_din : s.cells .din = s.din := rfl
@[simp] theorem cells_ivbuf : s.cells .ivbuf = s.ivbuf := rfl
@[simp] theorem cells_dout : s.cells .dout = s.dout := rfl

end Sys2Proof.Machine
end

