-- ==== Sys2Proof/Laws/Operations.lean ====
section
/-! SUPPORT. What each shared operation can do, said once: the operand checks, the bytes of a buffer after a result is stored,
block and bulk commands, and the sequence of written blocks. -/

namespace Sys2Proof.Machine

/-! ### Operand checks -/

theorem keyLengthOk_iff (n : Nat) : keyLengthOk n = true ↔ n = 16 ∨ n = 24 ∨ n = 32 := by
  simp [keyLengthOk, or_assoc]

theorem blockLengthOk_iff (n : Nat) : blockLengthOk n = true ↔ n = 16 := by
  simp [blockLengthOk, Config.blockBytes]

theorem bulkLengthOk_iff (n : Nat) : bulkLengthOk n = true ↔ n % 16 = 0 := by
  simp [bulkLengthOk, Config.blockBytes]

theorem ivLengthOk_iff (n : Nat) : ivLengthOk n = true ↔ n = 16 := by
  simp [ivLengthOk, Config.blockBytes]

theorem keySizeOk_iff (nk nr : BitVec 4) :
    keySizeOk nk nr = true ↔ (nk = 4 ∧ nr = 10) ∨ (nk = 6 ∧ nr = 12) ∨ (nk = 8 ∧ nr = 14) := by
  simp [keySizeOk, or_assoc]

theorem columnArgOk_iff (nk nr : BitVec 4) (c : Nat) :
    columnArgOk nk nr c = true ↔ nk.toNat ≤ c ∧ c < 4 * (nr.toNat + 1) := by
  simp only [columnArgOk, Bool.and_eq_true, decide_eq_true_eq]
  rfl

theorem roundArgOk_iff (nr : BitVec 4) (k : Nat) : roundArgOk nr k = true ↔ k ≤ nr.toNat := by
  simp [roundArgOk]

theorem columnCountOk_iff (nk : BitVec 4) : columnCountOk nk = true ↔ nk = 4 ∨ nk = 6 ∨ nk = 8 := by
  simp [columnCountOk, or_assoc]

/-- NK of a legal pair is one that KEXPCOL's rule covers. -/
theorem columnCountOk_of_keySizeOk (nk nr : BitVec 4) (h : keySizeOk nk nr = true) : columnCountOk nk = true := by
  rcases (keySizeOk_iff nk nr).1 h with ⟨rfl, -⟩ | ⟨rfl, -⟩ | ⟨rfl, -⟩ <;> rfl

/-- KEXPCOL's write under an NK that its rule covers. -/
theorem deriveColumn_of_columnCountOk (s : State) (c : Nat) (h : columnCountOk s.nk = true) :
    s.deriveColumn c = { s with w := expandColumn s.nk.toNat s.w c } := by
  simp [State.deriveColumn, expandColumn, h]

/-- KEXPCOL leaves every column but its own as it was, whatever NK is. -/
theorem schedCol_deriveColumn_other (s : State) (c d : Nat) (h : d ≠ c) :
    schedCol (s.deriveColumn c).w d = schedCol s.w d := by
  simp [State.deriveColumn, Ne.symm h]

theorem fits_iff (s : State) (n : Nat) : s.fits n = true ↔ ∀ cap, s.maxDlen = some cap → n ≤ cap := by
  unfold State.fits
  cases s.maxDlen <;> simp

/-- No error kind's precondition is violated exactly when every length is legal (R252, R254, R255). -/
theorem bulkError_none_iff (s : State) (cbc : Bool) :
    s.bulkError cbc = none ↔
      (s.klen = 16 ∨ s.klen = 24 ∨ s.klen = 32) ∧ s.dlen % 16 = 0 ∧ (cbc = true → s.ivlen = 16) := by
  rw [← keyLengthOk_iff, ← bulkLengthOk_iff, ← ivLengthOk_iff]
  unfold State.bulkError
  cases keyLengthOk s.klen <;> cases bulkLengthOk s.dlen <;> cases cbc <;> cases ivLengthOk s.ivlen <;> simp

/-- A bulk command's error is one of three kinds. -/
theorem bulkError_some (s : State) (cbc : Bool) (k : ErrKind) (h : s.bulkError cbc = some k) :
    k = .invalidKeyLength ∨ k = .unalignedData ∨ k = .invalidIvSize := by
  unfold State.bulkError at h
  repeat' split at h
  all_goals simp_all

/-! ### Bytes of a buffer -/

/-- A buffer byte after a result is stored at offset 0: the result's byte, or the old one. -/
theorem loadByte_storeOut (s : State) (bytes : List Byte) (b : Buffer) (off : Nat) :
    (s.storeOut 0 bytes).loadByte b off =
      if h : b = .dout ∧ off < bytes.length then bytes[off]'h.2 else s.loadByte b off := by
  cases b <;> simp [State.loadByte, memRead_memWriteBytes]
  split <;> simp_all

/-- Bytes of a buffer depend on its cells and the epoch only. -/
theorem loadByte_congr {s t : State} {b : Buffer} (hc : s.cells b = t.cells b) (he : s.epoch = t.epoch) (off : Nat) :
    s.loadByte b off = t.loadByte b off := by
  simp [State.loadByte, hc, he]

@[simp] theorem loadBlock_getElem (s : State) (b : Buffer) (off i : Nat) (h : i < 16) :
    (s.loadBlock b off)[i] = s.loadByte b (off + i) := by
  simp [State.loadBlock]

@[simp] theorem loadColumn_get (s : State) (b : Buffer) (off : Nat) (r : Fin 4) :
    (s.loadColumn b off).get r = s.loadByte b (off + r.val) := by
  simp [State.loadColumn]

/-! ### Blocks one after the other -/

theorem blocksBytes_length (x : List Block) : (blocksBytes x).length = 16 * x.length := by
  induction x with
  | nil => rfl
  | cons b rest ih => simp [blocksBytes] at ih ⊢; omega

/-- Byte `16i + j` of a sequence of blocks is byte `j` of block `i`. -/
theorem blocksBytes_getElem? (x : List Block) (i j : Nat) (hi : i < x.length) (hj : j < 16) :
    (blocksBytes x)[16 * i + j]? = some (x[i][j]) := by
  induction x generalizing i with
  | nil => simp at hi
  | cons b rest ih =>
    cases i with
    | zero => simp [blocksBytes, List.getElem?_append_left, hj]
    | succ i =>
      have h := ih i (by simpa using hi)
      simp only [blocksBytes, List.flatMap_cons] at h ⊢
      rw [List.getElem?_append_right (by simp; omega)]
      rw [show 16 * (i + 1) + j - b.toList.length = 16 * i + j by simp; omega, h]
      simp

@[simp] theorem ecbBlocks_length (f : Block → Block) (x : List Block) : (ecbBlocks f x).length = x.length := by
  simp [ecbBlocks]

@[simp] theorem cbcEncBlocks_length (f : Block → Block) (cv : Block) (x : List Block) :
    (cbcEncBlocks f cv x).length = x.length := by
  induction x generalizing cv with
  | nil => rfl
  | cons p rest ih => simp [cbcEncBlocks, ih]

@[simp] theorem cbcDecBlocks_length (f : Block → Block) (cv : Block) (x : List Block) :
    (cbcDecBlocks f cv x).length = x.length := by
  induction x generalizing cv with
  | nil => rfl
  | cons c rest ih => simp [cbcDecBlocks, ih]

@[simp] theorem dataBlocks_length (s : State) : s.dataBlocks.length = s.dlen / 16 := by
  simp [State.dataBlocks]

@[simp] theorem dataBlocks_getElem (s : State) (i : Nat) (h : i < s.dataBlocks.length) :
    s.dataBlocks[i] = s.loadBlock .din (16 * i) := by
  simp [State.dataBlocks, State.dataBlock]

/-! ### Commands -/

/-- The end of a completing block command as one record update: what it writes and that it writes nothing else (R40). -/
theorem blockResult_eq (s : State) (bytes : List Byte) (n : Nat) :
    ((s.storeOut 0 bytes).dropMat).complete n =
      { s with
        dout := memWriteBytes s.dout 0 bytes, mat := freeMat s.fresh, fresh := s.fresh + 16
        olen := n, err := .none, busy := false } := rfl

/-- The end of a completing bulk command as one record update (R40, R221). -/
theorem bulkResult_eq (s : State) (bytes : List Byte) (cbc : Bool) :
    (s.expandKey.storeOut 0 bytes).bulkEpilogue cbc =
      { s with
        w := freeSched s.fresh, nk := freeNibble (s.fresh + 240), nr := freeNibble (s.fresh + 241)
        mat := freeMat (s.fresh + 242), cv := if cbc then freeBlock (s.fresh + 258) else s.cv
        fresh := if cbc then s.fresh + 274 else s.fresh + 258
        dout := memWriteBytes s.dout 0 bytes, sv := false, olen := s.dlen, err := .none, busy := false } := by
  apply State.ext <;> simp

/-- All a block command can do (R201 to R203): refused without a schedule, an error by length, or its result. -/
theorem blockCommand_cases (s : State) (f : Sched → Nat → Block → Block) :
    (s.sv = false ∧ s.blockCommand f = .refused .noSchedule) ∨
    (s.sv = true ∧ s.dlen ≠ 16 ∧ s.blockCommand f = .next (s.raiseError .invalidBlockSize)) ∨
    (s.sv = true ∧ s.dlen = 16 ∧ s.blockCommand f =
      .next (((s.storeOut 0 (f s.w s.nr.toNat (s.loadBlock .din 0)).toList).dropMat).complete 16)) := by
  unfold State.blockCommand
  cases hs : s.sv
  · simp
  · by_cases hd : s.dlen = 16
    · exact .inr (.inr ⟨rfl, hd, by simp [(blockLengthOk_iff _).2 hd, State.dataBlock, Config.blockBytes]⟩)
    · have : blockLengthOk s.dlen = false := by
        rw [Bool.eq_false_iff]; exact fun h => hd ((blockLengthOk_iff _).1 h)
      exact .inr (.inl ⟨rfl, hd, by simp [this]⟩)

/-- All a bulk command can do (R221): refused above MAX_DLEN, the first violated check's error, or its five phases. -/
theorem bulkCommand_cases (s : State) (cbc : Bool) (f : Sched → Nat → Block → List Block → List Block) :
    (s.fits s.dlen = false ∧ s.bulkCommand cbc f = .refused .overCapacity) ∨
    (s.fits s.dlen = true ∧ ∃ k, s.bulkError cbc = some k ∧ s.bulkCommand cbc f = .next (s.raiseError k)) ∨
    (s.fits s.dlen = true ∧ s.bulkError cbc = none ∧ s.bulkCommand cbc f =
      .next ((s.expandKey.storeOut 0
        (blocksBytes (f s.expandKey.w s.expandKey.nr.toNat s.ivBlock s.dataBlocks))).bulkEpilogue cbc)) := by
  unfold State.bulkCommand
  cases hf : s.fits s.dlen
  · simp
  · cases hb : s.bulkError cbc with
    | none => simp
    | some k => exact .inr (.inl ⟨rfl, k, rfl, by simp⟩)

end Sys2Proof.Machine
end

