-- ==== Sys2Proof/Laws/Step.lean ====
section
/-! SUPPORT. What a step can do, said once: if it answers a next state, one of five things has happened. -/

namespace Sys2Proof.Machine

/-- A host move that is neither a reset nor a write to CMD. -/
def HostMove.isAccess : HostMove → Bool
  | .reset => false
  | .writeReg .cmd _ => false
  | _ => true

/-- What such a move does to the state. -/
def State.access (s : State) : HostMove → State
  | .writeReg r v => s.writeReg r v
  | .readReg r => s.readReg r
  | .writeByte x off v => s.writeByte x off v
  | .readByte x off => s.readByte x off
  | .reset => s

/-- Does the place that such a move names exist? -/
def State.placeExists (s : State) : HostMove → Bool
  | .writeByte x off _ => s.hasOffset x off
  | .readByte x off => s.hasOffset x off
  | _ => true

/-- If a step answers a next state, then a reset has arrived, or a word of the unit-operation bus has run, or a word on CMD
has run, or the host has accessed a register or a byte, or nothing was waiting. -/
theorem step_cases (s t : State) (h : step s = .next t) :
    (∃ rest, s.host = .reset :: rest ∧ t = { s with host := rest }.platformReset) ∨
    (∃ cw more i, s.seq = cw :: more ∧ decodeBus cw = .ok i ∧ exec i { s with seq := more } = .next t) ∨
    (∃ v rest i, s.seq = [] ∧ s.host = .writeReg .cmd v :: rest ∧ s.busy = false ∧
      decodeCmd (BitVec.ofNat 16 v) = .ok i ∧ exec i ({ s with host := rest }.issue) = .next t) ∨
    (∃ m rest, s.seq = [] ∧ s.host = m :: rest ∧ m.isAccess = true ∧ (s.busy && m.needsIdle) = false ∧
      s.placeExists m = true ∧ t = { s with host := rest }.access m) ∨
    (s.host = [] ∧ s.seq = [] ∧ t = s) := by
  unfold step stepWith at h
  split at h
  · next _ _ rest hh => simp at h; exact .inl ⟨rest, hh, h.symm⟩
  · next _ _ cw more hs _ =>
    unfold State.issueUnit at h
    split at h
    · next i hi => exact .inr (.inl ⟨cw, more, i, hs, hi, h⟩)
    · simp at h
  · next m rest hne hh hs =>
    split at h
    · simp at h
    · next hb =>
      have hb : (s.busy && m.needsIdle) = false := by simpa using hb
      cases m with
      | reset => exact absurd rfl hne
      | writeReg r v =>
        cases r
        case cmd =>
          simp only [State.hostMove, State.issueWord] at h
          split at h
          · next i hi =>
            exact .inr (.inr (.inl ⟨v, rest, i, hs, hh, by simpa [HostMove.needsIdle] using hb, hi, h⟩))
          · simp at h
        all_goals
          simp [State.hostMove] at h
          exact .inr (.inr (.inr (.inl ⟨_, rest, hs, hh, rfl, hb, rfl, h.symm⟩)))
      | readReg r =>
        simp [State.hostMove] at h
        exact .inr (.inr (.inr (.inl ⟨_, rest, hs, hh, rfl, hb, rfl, h.symm⟩)))
      | writeByte x off v =>
        simp only [State.hostMove] at h
        split at h
        · next ho => simp at h; exact .inr (.inr (.inr (.inl ⟨_, rest, hs, hh, rfl, hb, ho, h.symm⟩)))
        · simp at h
      | readByte x off =>
        simp only [State.hostMove] at h
        split at h
        · next ho => simp at h; exact .inr (.inr (.inr (.inl ⟨_, rest, hs, hh, rfl, hb, ho, h.symm⟩)))
        · simp at h
  · next hh hs => simp at h; exact .inr (.inr (.inr (.inr ⟨hh, hs, h.symm⟩)))

end Sys2Proof.Machine
end

