-- ==== Sys2Proof/Laws/Exec.lean ====
section
/-! SUPPORT. What an operation can do, said once for all of them; the class of the operations each port decodes; and what a
write leaves of a buffer's bound. -/

namespace Sys2Proof.Machine

/-- If an operation answers a next state, then it took an error, or it is EXPKEY and completed, or a block command, or a bulk
command, or it moved a block or transformed S, or it is LDKEY, or it is KEXPCOL. The provers cite it where they would unfold
`exec`. -/
theorem exec_cases (i : Instr) (s t : State) (h : exec i s = .next t) :
    (∃ k, i.isHost = true ∧ k ≠ .corruptPadding ∧ k ≠ .none ∧ t = s.raiseError k) ∨
    (i = .expkey ∧ keyLengthOk s.klen = true ∧ t = (s.expandKey.setSv true).complete 0) ∨
    ((i = .encblk ∨ i = .decblk) ∧ s.sv = true ∧ s.dlen = 16 ∧ ∃ bytes : List Byte, bytes.length = 16 ∧
      t = ((s.storeOut 0 bytes).dropMat).complete 16) ∨
    (i.isBulk = true ∧ s.fits s.dlen = true ∧ s.bulkError (i == .enccbc || i == .deccbc) = none ∧
      ∃ bytes : List Byte, bytes.length = s.dlen ∧
        t = (s.expandKey.storeOut 0 bytes).bulkEpilogue (i == .enccbc || i == .deccbc)) ∨
    (i.isHost = false ∧ (∀ c, i ≠ .kexpcol c) ∧ i ≠ .ldkey ∧ ∃ m o, t = { s with mat := m, blkOut := o } ∧
      (i = .ststate → m = s.mat) ∧ (i ≠ .ststate → o = s.blkOut)) ∨
    (i = .ldkey ∧ keyLengthOk s.klen = true ∧ t = s.loadKey) ∨
    (∃ c, i = .kexpcol c ∧ columnArgOk s.nk s.nr c.toNat = true ∧ t = s.deriveColumn c.toNat) := by
  have blk : ∀ f, s.blockCommand f = .next t → i.isHost = true →
      (∃ k, i.isHost = true ∧ k ≠ .corruptPadding ∧ k ≠ .none ∧ t = s.raiseError k) ∨
      (s.sv = true ∧ s.dlen = 16 ∧ ∃ bytes : List Byte, bytes.length = 16 ∧
        t = ((s.storeOut 0 bytes).dropMat).complete 16) := by
    intro f h hi
    rcases blockCommand_cases s f with ⟨-, e⟩ | ⟨-, -, e⟩ | ⟨hs, hd, e⟩ <;> rw [e] at h <;> cases h
    · exact .inl ⟨_, hi, by decide, by decide, rfl⟩
    · exact .inr ⟨hs, hd, _, by simp, rfl⟩
  have bulk : ∀ cbc f, (∀ a b c d, (f a b c d).length = d.length) → s.bulkCommand cbc f = .next t → i.isHost = true →
      (∃ k, i.isHost = true ∧ k ≠ .corruptPadding ∧ k ≠ .none ∧ t = s.raiseError k) ∨
      (s.fits s.dlen = true ∧ s.bulkError cbc = none ∧ ∃ bytes : List Byte, bytes.length = s.dlen ∧
        t = (s.expandKey.storeOut 0 bytes).bulkEpilogue cbc) := by
    intro cbc f hl h hi
    rcases bulkCommand_cases s cbc f with ⟨-, e⟩ | ⟨-, k, hk, e⟩ | ⟨hs, hn, e⟩ <;> rw [e] at h <;> cases h
    · refine .inl ⟨_, hi, ?_, ?_, rfl⟩ <;> rcases bulkError_some _ _ _ hk with h | h | h <;> subst h <;> decide
    · refine .inr ⟨hs, hn, _, ?_, rfl⟩
      rw [blocksBytes_length, hl, dataBlocks_length]
      have := ((bulkError_none_iff _ _).1 hn).2.1
      omega
  cases i with
  | expkey =>
    simp only [exec, execExpkey] at h
    split at h
    · cases h; exact .inr (.inl ⟨rfl, ‹_›, rfl⟩)
    · cases h; exact .inl ⟨_, rfl, by decide, by decide, rfl⟩
  | encblk =>
    rcases blk _ h rfl with h | h
    · exact .inl h
    · exact .inr (.inr (.inl ⟨.inl rfl, h⟩))
  | decblk =>
    rcases blk _ h rfl with h | h
    · exact .inl h
    · exact .inr (.inr (.inl ⟨.inr rfl, h⟩))
  | encecb =>
    simp only [exec, execEncecb] at h
    rcases bulk _ _ (by intros; simp) h rfl with h | h
    · exact .inl h
    · exact .inr (.inr (.inr (.inl ⟨rfl, h⟩)))
  | dececb =>
    simp only [exec, execDececb] at h
    rcases bulk _ _ (by intros; simp) h rfl with h | h
    · exact .inl h
    · exact .inr (.inr (.inr (.inl ⟨rfl, h⟩)))
  | enccbc =>
    simp only [exec, execEnccbc] at h
    rcases bulk _ _ (by intros; simp) h rfl with h | h
    · exact .inl h
    · exact .inr (.inr (.inr (.inl ⟨rfl, h⟩)))
  | deccbc =>
    simp only [exec, execDeccbc] at h
    rcases bulk _ _ (by intros; simp) h rfl with h | h
    · exact .inl h
    · exact .inr (.inr (.inr (.inl ⟨rfl, h⟩)))
  | ldkey =>
    simp only [exec, execLdkey] at h
    split at h <;> cases h
    exact .inr (.inr (.inr (.inr (.inr (.inl ⟨rfl, ‹_›, rfl⟩)))))
  | kexpcol c =>
    simp only [exec, execKexpcol] at h
    split at h <;> cases h
    exact .inr (.inr (.inr (.inr (.inr (.inr ⟨c, rfl, ‹_›, rfl⟩)))))
  | addroundkey k =>
    simp only [exec, execAddroundkey] at h
    split at h <;> cases h
    exact .inr (.inr (.inr (.inr (.inl ⟨rfl, nofun, nofun, _, _, rfl, nofun, fun _ => rfl⟩))))
  | ststate =>
    cases h
    exact .inr (.inr (.inr (.inr (.inl ⟨rfl, nofun, by decide, _, _, rfl, fun _ => rfl, fun h => absurd rfl h⟩))))
  | _ =>
    cases h
    exact .inr (.inr (.inr (.inr (.inl ⟨rfl, nofun, by decide, _, _, rfl, nofun, fun _ => rfl⟩))))

/-- CMD decodes to host commands only (R87). -/
theorem isHost_of_decodeCmd (cw : Word) (i : Instr) (h : decodeCmd cw = .ok i) : i.isHost = true := by
  unfold decodeCmd at h
  repeat' split at h
  all_goals first
    | (unfold noArg at h; split at h <;> cases h; rfl)
    | contradiction

/-- The unit-operation bus decodes to unit operations only (R87). -/
theorem isHost_of_decodeBus (cw : Word) (i : Instr) (h : decodeBus cw = .ok i) : i.isHost = false := by
  unfold decodeBus at h
  repeat' split at h
  all_goals first
    | (unfold noArg at h; split at h <;> cases h; rfl)
    | contradiction
    | (cases h; rfl)

/-- A write below the capacity keeps every listed offset below it. -/
theorem memBelow_memWrite (m : Mem) (cap : Option Nat) (a : Nat) (v : Byte) (h : memBelow m cap = true)
    (ha : ∀ n, cap = some n → a < n) : memBelow (memWrite m a v) cap = true := by
  cases cap with
  | none => rfl
  | some n =>
    simp only [memBelow, List.all_eq_true, decide_eq_true_eq] at h ⊢
    intro c hc
    rcases mem_memWrite _ _ _ _ hc with h' | h'
    · exact h _ h'
    · rw [h']; exact ha n rfl

/-- A write of a byte sequence that ends within the capacity keeps every listed offset below it. -/
theorem memBelow_memWriteBytes (bytes : List Byte) (m : Mem) (cap : Option Nat) (a : Nat) (h : memBelow m cap = true)
    (ha : ∀ n, cap = some n → a + bytes.length ≤ n) : memBelow (memWriteBytes m a bytes) cap = true := by
  induction bytes generalizing m a with
  | nil => exact h
  | cons v vs ih =>
    simp only [List.length_cons] at ha
    refine ih _ _ (memBelow_memWrite _ _ _ _ h ?_) ?_
    · intro n hn; have := ha n hn; omega
    · intro n hn; have := ha n hn; omega

/-- A directive's bytes stay within the buffer. -/
theorem memBelow_memFill (cap : Option Nat) (m : Mem) (bytes : List Byte) (h : memBelow m cap = true) :
    memBelow (memFill cap m bytes) cap = true := by
  refine memBelow_memWriteBytes _ _ _ _ h ?_
  rintro n rfl
  simp only [List.length_take, Nat.zero_add]
  exact Nat.min_le_left _ _

end Sys2Proof.Machine
end

