-- ==== Sys2Proof/Laws/PerInstr.lean ====
section
/-! SUPPORT. A law of the encoding, one lemma for each operation: bits 6:4 of the word are zero, CLASS tells a host command from
a unit operation, and a host command's ARG is zero (R80 to R82). -/

namespace Sys2Proof.Laws.Encoding

/-- The word of the operation has the form of its class. -/
def Statement (i : Instr) : Prop :=
  wordRsv (encode i) = 0 ∧ wordClass (encode i) = !i.isHost ∧ (i.isHost = true → wordArg (encode i) = 0)

theorem expkey : Statement .expkey := by
  unfold Statement
  decide

theorem encblk : Statement .encblk := by
  unfold Statement
  decide

theorem decblk : Statement .decblk := by
  unfold Statement
  decide

theorem encecb : Statement .encecb := by
  unfold Statement
  decide

theorem dececb : Statement .dececb := by
  unfold Statement
  decide

theorem enccbc : Statement .enccbc := by
  unfold Statement
  decide

theorem deccbc : Statement .deccbc := by
  unfold Statement
  decide

theorem ldkey : Statement .ldkey := by
  unfold Statement
  decide

theorem kexpcol (c : BitVec 8) : Statement (.kexpcol c) := by
  unfold Statement
  decide +revert

theorem ldstate : Statement .ldstate := by
  unfold Statement
  decide

theorem ststate : Statement .ststate := by
  unfold Statement
  decide

theorem subbytes : Statement .subbytes := by
  unfold Statement
  decide

theorem invsubbytes : Statement .invsubbytes := by
  unfold Statement
  decide

theorem shiftrows : Statement .shiftrows := by
  unfold Statement
  decide

theorem invshiftrows : Statement .invshiftrows := by
  unfold Statement
  decide

theorem mixcolumns : Statement .mixcolumns := by
  unfold Statement
  decide

theorem invmixcolumns : Statement .invmixcolumns := by
  unfold Statement
  decide

theorem addroundkey (k : BitVec 8) : Statement (.addroundkey k) := by
  unfold Statement
  decide +revert

end Sys2Proof.Laws.Encoding
end

