-- ==== Sys2Proof/Tests/Slice0.lean ====
section
/-! SUPPORT. The model's own tests, then a witness for each statement with hypotheses. The expected values are the spec's test
vectors (spec/95_test_vectors.md, named V<n>) and the words written out from spec/30_encoding.md. -/

namespace Sys2Proof.Tests
open Sys2Proof Sys2Proof.Machine

/-! ### Helpers -/

/-- The `len` bytes of a number written in hex, first byte first. -/
def hexBytes (len n : Nat) : List Byte := (List.range len).map fun i => BitVec.ofNat 8 (n / 256 ^ (len - 1 - i))

/-- A block written in hex. -/
def hexBlock (n : Nat) : Block := Vector.ofFn fun i => BitVec.ofNat 8 (n / 256 ^ (15 - i.val))

/-- A column written in hex. -/
def hexColumn (n : Nat) : Column := Column.ofFn fun r => BitVec.ofNat 8 (n / 256 ^ (3 - r.val))

/-- A matrix written as the block STSTATE gives. -/
def hexMat (n : Nat) : Mat := matOfBlock (hexBlock n)

/-- What the host sees of an outcome: ERR, SV and the result bytes. -/
def seen (o : Host.Outcome State Fault Refusal) : Option (ErrKind × Bool × List Byte) :=
  match o with
  | .next t => some (t.err, t.sv, t.result)
  | .fault _ => none
  | .refused _ => none

/-- S after a unit operation, as the block STSTATE would give. -/
def seenMat (o : Host.Outcome State Fault Refusal) : Option Block :=
  match o with
  | .next t => some (blockOfMat t.mat)
  | .fault _ => none
  | .refused _ => none

/-- Some schedule columns after a step. -/
def seenCols (cs : List Nat) (o : Host.Outcome State Fault Refusal) : Option (List Column) :=
  match o with
  | .next t => some (cs.map (schedCol t.w))
  | .fault _ => none
  | .refused _ => none

/-- The key of V20. -/
def keyV20 : List Byte := hexBytes 16 0x2b7e151628aed2a6abf7158809cf4f3c

/-- The key of V31. -/
def keyV31 : List Byte := hexBytes 16 0x000102030405060708090a0b0c0d0e0f

/-- Reset, then a key of 16 bytes in KEYBUF. -/
def keyed (key : List Byte) : State := State.reset.setKey key

/-- A key, a data operand and an IV, after reset. -/
def loaded (key data iv : List Byte) : State := ((keyed key).setDin data).setIv iv

/-- SV = 1 and DLEN = 16, over the reset values of the rest. -/
def ready : State := { State.reset with sv := true, dlen := 16 }

/-- Legal lengths of a key, one block of data and an IV. -/
def operands : State := { State.reset with klen := 16, dlen := 16, ivlen := 16 }

/-- A state whose S is the given matrix. -/
def withMat (n : Nat) : State := { State.reset with mat := hexMat n }

/-! ### Well-formedness -/

theorem test_wf_refuses_column_below_range : WellFormed (.kexpcol 3) = false := by decide
theorem test_wf_refuses_column_above_range : WellFormed (.kexpcol 60) = false := by decide
theorem test_wf_refuses_round_above_range : WellFormed (.addroundkey 15) = false := by decide
theorem test_wf_admits_the_ends :
    WellFormed (.kexpcol 4) = true ∧ WellFormed (.kexpcol 59) = true ∧ WellFormed (.addroundkey 0) = true ∧
    WellFormed (.addroundkey 14) = true ∧ WellFormed .ldkey = true := by decide

/-! ### Decoding: the words of R83 and R85, in binary as ARG, CLASS, reserved, FUNC (R80) -/

theorem test_decode_expkey : decodeTableWord 16 0b00000000_0_000_0001 = some .expkey := by decide
theorem test_decode_encblk : decodeTableWord 16 0b00000000_0_000_0010 = some .encblk := by decide
theorem test_decode_decblk : decodeTableWord 16 0b00000000_0_000_0011 = some .decblk := by decide
theorem test_decode_encecb : decodeTableWord 16 0b00000000_0_000_0100 = some .encecb := by decide
theorem test_decode_dececb : decodeTableWord 16 0b00000000_0_000_0101 = some .dececb := by decide
theorem test_decode_enccbc : decodeTableWord 16 0b00000000_0_000_0110 = some .enccbc := by decide
theorem test_decode_deccbc : decodeTableWord 16 0b00000000_0_000_0111 = some .deccbc := by decide
theorem test_decode_ldkey : decodeTableWord 16 0b00000000_1_000_0000 = some .ldkey := by decide
theorem test_decode_kexpcol : decodeTableWord 16 0b00010001_1_000_0001 = some (.kexpcol 17) := by decide
theorem test_decode_ldstate : decodeTableWord 16 0b00000000_1_000_0010 = some .ldstate := by decide
theorem test_decode_ststate : decodeTableWord 16 0b00000000_1_000_0011 = some .ststate := by decide
theorem test_decode_subbytes : decodeTableWord 16 0b00000000_1_000_0100 = some .subbytes := by decide
theorem test_decode_invsubbytes : decodeTableWord 16 0b00000000_1_000_0101 = some .invsubbytes := by decide
theorem test_decode_shiftrows : decodeTableWord 16 0b00000000_1_000_0110 = some .shiftrows := by decide
theorem test_decode_invshiftrows : decodeTableWord 16 0b00000000_1_000_0111 = some .invshiftrows := by decide
theorem test_decode_mixcolumns : decodeTableWord 16 0b00000000_1_000_1000 = some .mixcolumns := by decide
theorem test_decode_invmixcolumns : decodeTableWord 16 0b00000000_1_000_1001 = some .invmixcolumns := by decide
theorem test_decode_addroundkey : decodeTableWord 16 0b00001010_1_000_1010 = some (.addroundkey 10) := by decide

/-- The encoder writes the words of R83 and R85. -/
theorem test_encode_words :
    [Instr.expkey, .encblk, .decblk, .encecb, .dececb, .enccbc, .deccbc, .ldkey, .kexpcol 17, .ldstate, .ststate, .subbytes,
      .invsubbytes, .shiftrows, .invshiftrows, .mixcolumns, .invmixcolumns, .addroundkey 3].map encode =
    [0x0001, 0x0002, 0x0003, 0x0004, 0x0005, 0x0006, 0x0007, 0x0080, 0x1181, 0x0082, 0x0083, 0x0084, 0x0085, 0x0086, 0x0087,
      0x0088, 0x0089, 0x038A] := by decide

/-- V66: these words are reserved on CMD. -/
theorem test_reserved_words_on_cmd :
    [0x0000, 0x0008, 0x0011, 0x0101, 0x0084, 0x058A].all (fun cw => (decodeCmd cw).toOption == none) = true := by decide

/-- On the unit-operation bus: FUNC 11, a stray ARG, bits 6:4, a host word (R88). -/
theorem test_reserved_words_on_bus :
    [0x008B, 0x0184, 0x00A4, 0x0001].all (fun cw => (decodeBus cw).toOption == none) = true := by decide

/-! ### Field arithmetic and tables -/

/-- V11. -/
theorem test_xtime :
    [0x00, 0x01, 0x57, 0xae, 0x47, 0x8e, 0x7f, 0x80, 0x8d, 0xff].map xtime =
    [0x00, 0x02, 0xae, 0x47, 0x8e, 0x07, 0xfe, 0x1b, 0x01, 0xe5] := by decide

/-- V12. -/
theorem test_gmul :
    gmul 0x57 0x83 = 0xc1 ∧ gmul 0x57 0x13 = 0xfe ∧ gmul 0x00 0x0e = 0x00 ∧ gmul 0xff 0x00 = 0x00 ∧ gmul 0x53 0xca = 0x01 ∧
    gmul 0xff 0xff = 0x13 ∧ gmul 0xbf 0x03 = 0xda ∧ gmul 0x0e 0x0e = 0x54 := by decide

/-- V25, single entries. -/
theorem test_sbox_entries :
    [0x00, 0x01, 0x53, 0xff, 0xc9].map sbox = [0x63, 0x7c, 0xed, 0x16, 0xdd] ∧
    [0x00, 0x63, 0xed, 0x16].map invSbox = [0x52, 0x00, 0x53, 0xff] := by decide

/-! ### The key expander -/

/-- The example of R133. -/
theorem test_ldkey :
    seenCols [0, 1, 2, 3] (exec .ldkey (keyed keyV20)) =
      some [hexColumn 0x2b7e1516, hexColumn 0x28aed2a6, hexColumn 0xabf71588, hexColumn 0x09cf4f3c] := by decide +kernel

/-- V20: column 4 takes the first case, column 5 the third. -/
theorem test_kexpcol_first_and_third_case :
    let s := (keyed keyV20).loadKey
    let t := { s with w := expandColumn 4 s.w 4 }
    seenCols [4] (exec (.kexpcol 4) s) = some [hexColumn 0xa0fafe17] ∧
    seenCols [5] (exec (.kexpcol 5) t) = some [hexColumn 0x88542cb1] := by decide +kernel

/-- V22: with NK = 8 column 12 takes the second case. V21: with NK = 6 column 10 takes the third. -/
theorem test_kexpcol_second_case :
    let s := { State.reset with
      nk := 8
      nr := 14
      w := schedSet (schedSet State.reset.w 4 (hexColumn 0x1f352c07)) 11 (hexColumn 0x2067fcde) }
    let t := { State.reset with
      nk := 6
      nr := 12
      w := schedSet (schedSet State.reset.w 4 (hexColumn 0x62f8ead2)) 9 (hexColumn 0x6c827f6b) }
    seenCols [12] (exec (.kexpcol 12) s) = some [hexColumn 0xa8b09c1a] ∧
    seenCols [10] (exec (.kexpcol 10) t) = some [hexColumn 0x0e7a95b9] := by decide +kernel

/-- V20: columns of a 16-byte key, the last two round constants among them. -/
theorem test_expkey_v20 :
    seenCols [8, 36, 40, 43] (exec .expkey (keyed keyV20)) =
      some [hexColumn 0xf2c295f2, hexColumn 0xac7766f3, hexColumn 0xd014f9a8, hexColumn 0xb6630ca6] := by decide +kernel

/-- V22: columns of a 32-byte key. -/
theorem test_expkey_v22 :
    seenCols [12, 59] (exec .expkey
      (keyed (hexBytes 32 0x603deb1015ca71be2b73aef0857d77811f352c073b6108d72d9810a30914dff4))) =
      some [hexColumn 0xa8b09c1a, hexColumn 0x706c631e] := by decide +kernel

/-! ### Unit operations -/

/-- The example of R160: row 0 of S. -/
theorem test_ldstate :
    (match exec .ldstate { State.reset with blkIn := hexBlock 0x3243f6a8885a308d313198a2e0370734 } with
      | .next t => [t.mat.get 0 0, t.mat.get 0 1, t.mat.get 0 2, t.mat.get 0 3]
      | .fault _ => []
      | .refused _ => []) = [0x32, 0x88, 0x31, 0xe0] := by decide

/-- V24: the linear block of a state whose row 0 is 00 04 08 0c, and so on. -/
theorem test_ststate :
    (match exec .ststate { State.reset with mat := Mat.ofFn (fun r c => BitVec.ofNat 8 (r.val + 4 * c.val)) } with
      | .next t => some t.blkOut
      | .fault _ => none
      | .refused _ => none) = some (hexBlock 0x000102030405060708090a0b0c0d0e0f) := by decide

/-- V25. -/
theorem test_subbytes :
    seenMat (exec .subbytes (withMat 0x193de3bea0f4e22b9ac68d2ae9f84808)) =
      some (hexBlock 0xd42711aee0bf98f1b8b45de51e415230) := by decide +kernel

/-- R166's example. -/
theorem test_invsubbytes :
    seenMat (exec .invsubbytes (withMat 0xd42711aee0bf98f1b8b45de51e415230)) =
      some (hexBlock 0x193de3bea0f4e22b9ac68d2ae9f84808) := by decide +kernel

/-- V26. -/
theorem test_shiftrows :
    seenMat (exec .shiftrows (withMat 0x000102030405060708090a0b0c0d0e0f)) =
      some (hexBlock 0x00050a0f04090e03080d02070c01060b) := by decide +kernel

/-- V26. -/
theorem test_invshiftrows :
    seenMat (exec .invshiftrows (withMat 0x000102030405060708090a0b0c0d0e0f)) =
      some (hexBlock 0x000d0a0704010e0b0805020f0c090603) := by decide +kernel

/-- V27, whole state. -/
theorem test_mixcolumns :
    seenMat (exec .mixcolumns (withMat 0xd4bf5d30e0b452aeb84111f11e2798e5)) =
      some (hexBlock 0x046681e5e0cb199a48f8d37a2806264c) := by decide +kernel

/-- V27: 01000000, 00010000, 80000000 and 046681e5 as the four columns. -/
theorem test_invmixcolumns :
    seenMat (exec .invmixcolumns (withMat 0x010000000001000080000000046681e5)) =
      some (hexBlock 0x0e090d0b0b0e090d41ecdaf7d4bf5d30) := by decide +kernel

/-- V28. -/
theorem test_addroundkey :
    seenMat (exec (.addroundkey 1) { (keyed keyV20).expandKey with mat := hexMat 0x046681e5e0cb199a48f8d37a2806264c }) =
      some (hexBlock 0xa49c7ff2689f352b6b5bea43026a5049) := by decide +kernel

/-! ### ENCBLK and DECBLK -/

/-- A state with the schedule of V31's key and a block in DIN. -/
def scheduled (block : List Byte) : State := { (keyed keyV31).expandKey.setDin block with sv := true }

/-- V31. -/
theorem test_encblk_v31 :
    seen (exec .encblk (scheduled (hexBytes 16 0x00112233445566778899aabbccddeeff))) =
      some (.none, true, hexBytes 16 0x69c4e0d86a7b0430d8cdb78070b4c55a) := by decide +kernel

/-- V63: DLEN = 15. -/
theorem test_encblk_v63 :
    seen (exec .encblk (scheduled (hexBytes 15 0x00112233445566778899aabbccddee))) =
      some (.invalidBlockSize, true, []) := by decide +kernel

/-- V35e. -/
theorem test_decblk_v35e :
    seen (exec .decblk (scheduled (hexBytes 16 0x00112233445566778899aabbccddeeff))) =
      some (.none, true, hexBytes 16 0x762a5ab50929189cefdb99434790aad8) := by decide +kernel

/-- V65a: SV = 0, and DLEN = 15 is not looked at. -/
theorem test_decblk_v65a :
    (match exec .decblk { State.reset with dlen := 15 } with
      | .refused r => r == .noSchedule
      | .fault _ => false
      | .next _ => false) = true := by decide

/-! ### The bulk commands -/

/-- V42: two equal blocks. -/
theorem test_encecb_v42 :
    seen (exec .encecb (loaded keyV31 (hexBytes 32 0x00112233445566778899aabbccddeeff00112233445566778899aabbccddeeff) [])) =
      some (.none, false, hexBytes 32 0x69c4e0d86a7b0430d8cdb78070b4c55a69c4e0d86a7b0430d8cdb78070b4c55a) := by decide +kernel

/-- V61: a 17-byte buffer. -/
theorem test_encecb_v61 :
    seen (exec .encecb { operands with dlen := 17, sv := true }) = some (.unalignedData, true, []) := by decide +kernel

/-- V40, the second block. -/
theorem test_dececb_v40 :
    seen (exec .dececb (loaded keyV20 (hexBytes 16 0xf5d3d58503b9699de785895a96fdbaaf) [])) =
      some (.none, false, hexBytes 16 0xae2d8a571e03ac9c9eb76fac45af8e51) := by decide +kernel

/-- V64b: the key's length is checked first. -/
theorem test_dececb_v64b :
    seen (exec .dececb { operands with klen := 20, dlen := 17 }) = some (.invalidKeyLength, false, []) := by decide +kernel

/-- V41, two blocks. -/
theorem test_enccbc_v41 :
    seen (exec .enccbc (loaded keyV20 (hexBytes 32 0x6bc1bee22e409f96e93d7e117393172aae2d8a571e03ac9c9eb76fac45af8e51) keyV31)) =
      some (.none, false, hexBytes 32 0x7649abac8119b246cee98e9b12e9197d5086cb9b507219ee95db113a917678b2) := by decide +kernel

/-- V44: the empty buffer with IVLEN = 15. -/
theorem test_enccbc_v44 :
    seen (exec .enccbc { operands with dlen := 0, ivlen := 15 }) = some (.invalidIvSize, false, []) := by decide +kernel

/-- V46: the chain value is the ciphertext. -/
theorem test_deccbc_v46 :
    seen (exec .deccbc (loaded keyV31 (hexBytes 32 0x69c4e0d86a7b0430d8cdb78070b4c55a69c4e0d86a7b0430d8cdb78070b4c55a)
      (hexBytes 16 0))) =
      some (.none, false, hexBytes 32 0x00112233445566778899aabbccddeeff69d5c2eb2e2e624750541d3bbc692ba5) := by decide +kernel

/-- V44: the empty buffer completes. -/
theorem test_deccbc_v44 :
    seen (exec .deccbc { operands with dlen := 0 }) = some (.none, false, []) := by decide +kernel

/-! ### Steps and host software -/

/-- P3's first command as one step: EXPKEY with a 20-byte key, issued by a write to CMD. -/
theorem test_step_expkey_with_a_bad_key :
    (match step (({ State.reset with klen := 20 }).withFetchWord 16 0x0001) with
      | .next t => [t.status.toNat, t.host.length]
      | .fault _ => []
      | .refused _ => []) = [4, 0] := by decide +kernel

/-- V60d: a key of 33 bytes sets KLEN = 33, and KEYBUF has 32 bytes. -/
theorem test_key_directive_beyond_keybuf :
    ((keyed (List.replicate 33 1)).klen, (keyed (List.replicate 33 1)).keybuf.length) = (33, 32) := by decide +kernel

/-- V50, and the counts of V51. -/
theorem test_pad_and_unpad :
    pad [] = List.replicate 16 0x10 ∧ pad [0x41] = 0x41 :: List.replicate 15 0x0f ∧
    pad (hexBytes 16 0x000102030405060708090a0b0c0d0e0f) =
      hexBytes 32 0x000102030405060708090a0b0c0d0e0f10101010101010101010101010101010 ∧
    unpad (List.replicate 16 0) = .corruptPadding ∧ unpad (List.replicate 16 0x11) = .corruptPadding ∧
    unpad [0x03, 0x03] = .corruptPadding ∧ unpad [0x03, 0x03, 0x03] = .data [] ∧
    unpad (hexBytes 16 0x01010101010101010101010101010102) = .corruptPadding ∧
    unpad (List.replicate 32 0x20) = .data [] := by decide +kernel

/-! ### Witnesses: a concrete state and operands that meet a statement's hypotheses together -/

theorem witness_EncodingRoundTripsBothWays :
    decodeWord 0x0001 = .ok .expkey ∧ decodeCmd 0x0007 = .ok .deccbc ∧ decodeBus 0xff8a = .ok (.addroundkey 255) ∧
    decodeWord 0x0081 = .ok (.kexpcol 0) ∧ Instr.deccbc.isHost = true ∧ (Instr.addroundkey 255).isHost = false :=
  ⟨rfl, rfl, rfl, rfl, rfl, rfl⟩

/-- CMD: the words 0x0000 and 0x0008. The bus: FUNC 11, bits 6:4 not zero, ARG not zero. ARG just below and above its
range. -/
theorem witness_ReservedWordsAreRefused :
    let s := { State.reset with host := [.writeReg .cmd 0x0000] }
    let u := { State.reset with seq := [0x008B] }
    (s.host = .writeReg .cmd (BitVec.toNat (0x0000 : Word)) :: [] ∧ s.seq = [] ∧ s.busy = false) ∧
    8 ≤ BitVec.toNat (0x0008 : Word) ∧
    (u.seq = 0x008B :: [] ∧ ∀ rest, u.host ≠ .reset :: rest) ∧
    11 ≤ BitVec.toNat (0x008B : Word) % 16 ∧ BitVec.toNat (0x0094 : Word) / 16 % 16 ≠ 8 ∧
    (BitVec.toNat (0x0184 : Word) % 16 ≠ 1 ∧ BitVec.toNat (0x0184 : Word) % 16 ≠ 10 ∧
      BitVec.toNat (0x0184 : Word) / 256 ≠ 0) ∧
    (3 : BitVec 8).toNat < State.reset.nk.toNat ∧
    4 * (State.reset.nr.toNat + 1) ≤ (44 : BitVec 8).toNat ∧ State.reset.nr.toNat < (11 : BitVec 8).toNat :=
  ⟨⟨rfl, rfl, rfl⟩, by decide, ⟨rfl, fun _ h => List.noConfusion rfl (heq_of_eq h)⟩, by decide, by decide, by decide,
    by decide, by decide, by decide⟩

theorem witness_StepRunsTheWordWrittenToCmd :
    let s := { State.reset with host := [.writeReg .cmd 1] }
    s.host = .writeReg .cmd 1 :: [] ∧ s.seq = [] ∧ s.busy = false ∧ decodeCmd (BitVec.ofNat 16 1) = .ok .expkey :=
  ⟨rfl, rfl, rfl, rfl⟩

theorem witness_StepRunsTheWordOnTheUnitBus :
    let s := { State.reset with seq := [0x0084] }
    s.seq = 0x0084 :: [] ∧ (∀ rest, s.host ≠ .reset :: rest) ∧ decodeBus 0x0084 = .ok .subbytes :=
  ⟨rfl, fun _ => nofun, rfl⟩

theorem witness_IdleStepChangesNothing : State.reset.host = [] ∧ State.reset.seq = [] := ⟨rfl, rfl⟩

/-- A reset in the middle of an expansion. -/
theorem witness_ResetAbandonsTheCommandInProgress :
    { State.reset with busy := true, seq := [0x0581], host := [.reset] }.host = .reset :: [] := rfl

/-- A good state that is not the reset state, and its step. -/
theorem witness_StepKeepsTheInvariant :
    ∃ s t : State, Inv s ∧ step s = .next t ∧ s.sv = true ∧ s.host = [.writeByte (.buffer .din) 31 7] :=
  ⟨{ ready with
      keybuf := [(31, 1)]
      maxDlen := some 32
      dout := [(0, 9)]
      olen := 1
      host := [.writeByte (.buffer .din) 31 7] }, _,
    { idle := rfl, coreErr := by decide, keySize := by decide
      capacity := by intro n h; cases h; decide
      keybufWf := rfl, dinWf := rfl, ivbufWf := rfl, doutWf := rfl
      keybufBelow := rfl, dinBelow := rfl, ivbufBelow := rfl, doutBelow := rfl
      result := by
        intro off h
        have h : off < 1 := h
        obtain rfl : off = 0 := by omega
        rfl
      resultFits := rfl }, rfl, rfl, rfl⟩

theorem witness_GmulIsFieldMultiplication : (0x53 : Byte) ≠ 0 ∧ gmul 0x53 0xca = 0x01 := by decide

theorem witness_SboxesAreInversePermutations :
    ((0x00 : Byte) = 0 ∧ (0x00 : Byte) = 0) ∧ gmul 0x53 0xca = 0x01 := by decide

theorem witness_ColumnFunctionsOfTheKeyExpander : 0 < 8 ∧ 7 < 8 := by decide

theorem witness_LoadAndStoreStateColumnMajor : 0 < 16 ∧ 15 < 16 := by decide

theorem witness_MixColumnsMixesEachColumn :
    State.reset.mat.get 0 3 = 0 ∧ State.reset.mat.get 1 3 = 0 ∧ State.reset.mat.get 2 3 = 0 ∧ State.reset.mat.get 3 3 = 0 := by
  decide

theorem witness_InvMixColumnsMixesEachColumn :
    State.reset.mat.get 0 0 = 0 ∧ State.reset.mat.get 1 0 = 0 ∧ State.reset.mat.get 2 0 = 0 ∧ State.reset.mat.get 3 0 = 0 := by
  decide

theorem witness_RotationsAndSubstitutionsUndoAndCommute :
    (∃ s t u : State, exec .shiftrows s = .next t ∧ exec .invshiftrows s = .next u) ∧
    (∃ s t u : State, exec .subbytes s = .next t ∧ exec .shiftrows s = .next u) ∧
    (∃ s t u : State, exec .invsubbytes s = .next t ∧ exec .invshiftrows s = .next u) ∧
    ((1 : Fin 4) = 1 ∨ (1 : Fin 4) = 3) ∧ ((3 : Fin 4) = 1 ∨ (3 : Fin 4) = 3) :=
  ⟨⟨State.reset, _, _, rfl, rfl⟩, ⟨State.reset, _, _, rfl, rfl⟩, ⟨State.reset, _, _, rfl, rfl⟩, .inl rfl, .inr rfl⟩

/-- The first and the last round key of every key length. -/
theorem witness_AddRoundKeyXorsTheRoundKey :
    (BitVec.toNat (0 : BitVec 8) ≤ State.reset.nr.toNat ∧ BitVec.toNat (10 : BitVec 8) ≤ State.reset.nr.toNat ∧
      State.reset.nr.toNat ≤ 14) ∧
    BitVec.toNat (14 : BitVec 8) ≤ { State.reset with nr := 14 }.nr.toNat ∧ { State.reset with nr := 14 }.nr.toNat ≤ 14 := by
  decide

theorem witness_AddRoundKeyTwiceChangesNothing :
    (10 : BitVec 8).toNat ≤ State.reset.nr.toNat ∧ (15 : BitVec 8).toNat ≤ { State.reset with nr := 15 }.nr.toNat := by
  decide

/-- Every key length; columns on both sides of the boundary NK. -/
theorem witness_LdkeyLoadsTheKeyColumns :
    ({ State.reset with klen := 16 }.klen = 16 ∧ 3 < (4 : BitVec 4).toNat ∧ (4 : BitVec 4).toNat ≤ 4) ∧
    { State.reset with klen := 24 }.klen = 24 ∧ { State.reset with klen := 32 }.klen = 32 := by decide

/-- Key lengths around the legal ones; columns under NK = 0, under an illegal NK with the last column, and under NK = 4 with an
NR that is not its own. -/
theorem witness_LdkeyNeedsACheckedKeyLength :
    (State.reset.klen ≠ 16 ∧ State.reset.klen ≠ 24 ∧ State.reset.klen ≠ 32) ∧ (17 ≠ 16 ∧ 17 ≠ 24 ∧ 17 ≠ 32) ∧
    (let s := { State.reset with nk := 0, nr := 0 };
      s.nk.toNat ≤ (0 : BitVec 8).toNat ∧ (0 : BitVec 8).toNat < 4 * (s.nr.toNat + 1)) ∧
    (let s := { State.reset with nk := 15, nr := 15 };
      s.nk.toNat ≤ (63 : BitVec 8).toNat ∧ (63 : BitVec 8).toNat < 4 * (s.nr.toNat + 1)) ∧
    (let s := { State.reset with nk := 4, nr := 14 };
      s.nk.toNat ≤ (59 : BitVec 8).toNat ∧ (59 : BitVec 8).toNat < 4 * (s.nr.toNat + 1) ∧ s.nk = 4 ∧
        (59 : BitVec 8).toNat < 60) := by decide

/-- KEXPCOL's hypotheses. -/
def kexpcolOk (nk nr : BitVec 4) (c : BitVec 8) : Bool :=
  keySizeOk nk nr && decide (nk.toNat ≤ c.toNat) && decide (c.toNat < 4 * (nr.toNat + 1))

/-- The first and the last column of each key size; columns of the three cases. -/
theorem witness_KexpcolDerivesItsColumn :
    (kexpcolOk 4 10 4 && kexpcolOk 4 10 43 && kexpcolOk 6 12 6 && kexpcolOk 6 12 51 && kexpcolOk 8 14 8 &&
      kexpcolOk 8 14 59) = true ∧
    8 % 8 = 0 ∧ (12 % 8 ≠ 0 ∧ 6 < 8 ∧ 12 % 8 = 4) ∧ 10 % 6 ≠ 0 ∧ ¬ (6 < 6 ∧ 10 % 6 = 4) := by decide

/-- Every key length; the first column beyond the schedule of a 16-byte key; lengths that are none of the three. -/
theorem witness_ExpkeyBuildsTheSchedule :
    operands.klen = 16 ∧ { operands with klen := 24 }.klen = 24 ∧ { operands with klen := 32 }.klen = 32 ∧
    4 * (operands.klen / 4 + 7) ≤ 44 ∧ ¬ (State.reset.klen = 16 ∨ State.reset.klen = 24 ∨ State.reset.klen = 32) ∧
    ¬ (33 = 16 ∨ 33 = 24 ∨ 33 = 32) := by decide

theorem witness_ExpkeyIsItsUnitOperations : ∃ t, operands.klen = 16 ∧ exec .expkey operands = .next t := ⟨_, rfl, rfl⟩

/-- The last byte of the key and the last byte of the schedule. -/
theorem witness_ScheduleWindowShowsTheKeyAndW :
    ∃ t, exec .expkey operands = .next t ∧ t.err = .none ∧ t.seq = [] ∧ 15 < 16 * (t.nr.toNat + 1) ∧ 15 < operands.klen ∧
      175 < 16 * (t.nr.toNat + 1) := ⟨_, rfl, rfl, rfl, by decide, by decide, by decide⟩

/-- The same key in two different states. -/
theorem witness_ExpansionDependsOnTheKeyAlone :
    ∃ t v, operands.klen = { operands with dlen := 5, sv := true }.klen ∧
      (∀ off, off < operands.klen →
        operands.loadByte .keybuf off = { operands with dlen := 5, sv := true }.loadByte .keybuf off) ∧
      exec .expkey operands = .next t ∧ exec .expkey { operands with dlen := 5, sv := true } = .next v ∧ t.err = .none :=
  ⟨_, _, rfl, fun _ _ => rfl, rfl, rfl, rfl⟩

theorem witness_BlockCommandsComplete : ready.sv = true ∧ ready.dlen = 16 := ⟨rfl, rfl⟩

theorem witness_BlockCommandsNeedASchedule : State.reset.sv = false := rfl

theorem witness_EncblkIsItsUnitOperations :
    ready.sv = true ∧ keySizeOk ready.nk ready.nr = true ∧ ready.dlen = 16 := ⟨rfl, by decide, rfl⟩

theorem witness_DecblkIsItsUnitOperations :
    let s := { ready with nk := 8, nr := 14 }
    s.sv = true ∧ keySizeOk s.nk s.nr = true ∧ s.dlen = 16 := ⟨rfl, by decide, rfl⟩

theorem witness_BlockRoundTrip : ready.sv = true ∧ ready.dlen = 16 := ⟨rfl, rfl⟩

/-- Two states that differ in S and CV. -/
theorem witness_BlockResultDependsOnScheduleAndBlock :
    let u := { ready with mat := hexMat 5, cv := hexBlock 7, err := .unalignedData }
    ∃ t, (Instr.encblk = .encblk ∨ Instr.encblk = .decblk) ∧ ready.sv = true ∧ u.sv = true ∧ ready.dlen = 16 ∧ u.dlen = 16 ∧
      ready.nr = u.nr ∧ (∀ c, c < 4 * (ready.nr.toNat + 1) → schedCol ready.w c = schedCol u.w c) ∧
      (∀ off, off < 16 → ready.loadByte .din off = u.loadByte .din off) ∧ exec .encblk ready = .next t :=
  ⟨_, .inl rfl, rfl, rfl, rfl, rfl, rfl, fun _ _ => rfl, fun _ _ => rfl, rfl⟩

theorem operands_ok (cbc : Bool) : BulkOperandsOk cbc operands := ⟨rfl, .inl rfl, rfl, fun _ => rfl⟩

/-- One block and the first and only index. -/
theorem witness_EcbCommandsComplete : BulkOperandsOk false operands ∧ 0 < operands.dlen / 16 := ⟨operands_ok _, by decide⟩

/-- Two blocks of data. -/
def twoBlocks : State := { operands with dlen := 32 }

theorem twoBlocks_ok (cbc : Bool) : BulkOperandsOk cbc twoBlocks := ⟨rfl, .inl rfl, rfl, fun _ => rfl⟩

/-- Blocks 0 and 1 exist. -/
theorem witness_EnccbcCompletes : BulkOperandsOk true twoBlocks ∧ 0 < twoBlocks.dlen / 16 ∧ 1 < twoBlocks.dlen / 16 :=
  ⟨twoBlocks_ok _, by decide, by decide⟩

theorem witness_DeccbcCompletes : BulkOperandsOk true twoBlocks ∧ 0 < twoBlocks.dlen / 16 ∧ 1 < twoBlocks.dlen / 16 :=
  ⟨twoBlocks_ok _, by decide, by decide⟩

theorem witness_EmptyBufferCompletes :
    let s := { operands with dlen := 0 }
    Instr.deccbc.isBulk = true ∧ s.dlen = 0 ∧ s.klen = 16 ∧ s.ivlen = 16 := ⟨rfl, rfl, rfl, rfl⟩

theorem witness_BulkRoundTrip : BulkOperandsOk false twoBlocks ∧ BulkOperandsOk true twoBlocks ∧ 31 < twoBlocks.dlen :=
  ⟨twoBlocks_ok _, twoBlocks_ok _, by decide⟩

/-- Two equal blocks in DIN. -/
def equalBlocks : State := loaded keyV31 (List.replicate 32 0) (hexBytes 16 0)

theorem witness_EqualBlocksInEcbAndCbc :
    (∃ t, BulkOperandsOk false equalBlocks ∧ exec .encecb equalBlocks = .next t) ∧
    (∃ t, BulkOperandsOk true equalBlocks ∧ exec .enccbc equalBlocks = .next t) ∧
    0 < equalBlocks.dlen / 16 ∧ 1 < equalBlocks.dlen / 16 ∧ 2 ≤ equalBlocks.dlen / 16 ∧
    equalBlocks.loadBlock .din 0 = equalBlocks.loadBlock .din 16 :=
  ⟨⟨_, ⟨by decide +kernel, .inl (by decide +kernel), by decide +kernel, fun h => nomatch h⟩, rfl⟩,
    ⟨_, ⟨by decide +kernel, .inl (by decide +kernel), by decide +kernel, fun _ => by decide +kernel⟩, rfl⟩,
    by decide +kernel, by decide +kernel, by decide +kernel, by decide +kernel⟩

theorem witness_WrongIvCorruptsBlockZeroOnly :
    ∃ t u, BulkOperandsOk true twoBlocks ∧ exec .deccbc twoBlocks = .next t ∧
      exec .deccbc { twoBlocks with ivbuf := [(0, 1)] } = .next u ∧ 0 < twoBlocks.dlen / 16 ∧ 1 ≤ 1 ∧
      1 < twoBlocks.dlen / 16 :=
  ⟨_, _, twoBlocks_ok _, rfl, rfl, by decide, by decide, by decide⟩

theorem witness_OneBlockEcbEqualsBlockCommand : BulkOperandsOk false operands ∧ operands.dlen = 16 := ⟨operands_ok _, rfl⟩

/-- Two states with the same operands but for what the command does not read. -/
theorem witness_BulkAnswerDependsOnItsOperands :
    let u := { operands with sv := true, mat := hexMat 5, cv := hexBlock 7, dout := [(3, 1)], olen := 4 }
    ∃ t, Instr.enccbc.isBulk = true ∧ SameBulkOperands (Instr.enccbc == .enccbc || Instr.enccbc == .deccbc) operands u ∧
      exec .enccbc operands = .next t :=
  ⟨_, rfl, ⟨rfl, rfl, rfl, fun _ => rfl, fun _ _ => rfl, fun _ _ => rfl, fun _ _ _ => rfl⟩, rfl⟩

theorem witness_OversizeDataIsRefused :
    let s := { operands with maxDlen := some 16, dlen := 17, sv := true }
    s.maxDlen = some 16 ∧ 16 ≤ 16 ∧ 16 < s.dlen ∧ s.sv = true ∧ Instr.encecb.isBulk = true ∧ ∃ t, exec .expkey s = .next t :=
  ⟨rfl, by decide, by decide, rfl, rfl, _, rfl⟩

/-- Each clause: KLEN 0 and 33; SV = 0; DLEN 15 and 17 with SV = 1; DLEN = 17 of a bulk command; IVLEN = 15. -/
theorem witness_FirstFailingCheckIsReported :
    (¬ (State.reset.klen = 16 ∨ State.reset.klen = 24 ∨ State.reset.klen = 32)) ∧ ¬ (33 = 16 ∨ 33 = 24 ∨ 33 = 32) ∧
    State.reset.sv = false ∧ { ready with dlen := 17 }.sv = true ∧ { ready with dlen := 17 }.dlen ≠ 16 ∧
    { operands with dlen := 17 }.fits 17 = true ∧ { operands with dlen := 17 }.dlen % 16 ≠ 0 ∧
    operands.fits 16 = true ∧ operands.dlen % 16 = 0 ∧ { operands with ivlen := 15 }.ivlen ≠ 16 := by decide

theorem witness_AnErrorChangesNothingElse :
    ∃ t, Instr.expkey.isHost = true ∧ exec .expkey State.reset = .next t ∧ t.err ≠ .none := ⟨_, rfl, rfl, by decide⟩

theorem witness_EveryCommandOverwritesErr : Instr.encecb.isHost = true := rfl

/-- A step's hypotheses: the outcome of a step that moves SV, and SV before it. -/
def svMoves (s : State) (after : Bool) : Bool :=
  match step s with
  | .next t => s.sv != t.sv && t.sv == after && t.err == .none
  | .fault _ => false
  | .refused _ => false

/-- A completing EXPKEY, a completing bulk command, an erring one, a block command; and steps that move SV by EXPKEY, by a bulk
command and by a reset. -/
theorem witness_OnlyExpkeySetsSvAndBulkClearsIt :
    (∃ t, exec .expkey operands = .next t ∧ t.err = .none) ∧
    (∃ t, exec .encecb operands = .next t ∧ Instr.encecb.isBulk = true ∧ t.err = .none) ∧
    (∃ t, exec .encecb State.reset = .next t ∧ Instr.encecb.isHost = true ∧ t.err ≠ .none) ∧
    (∃ t, exec .encblk ready = .next t ∧ Instr.encblk ≠ .expkey ∧ Instr.encblk.isBulk = false) ∧
    svMoves { operands with host := [.writeReg .cmd 1] } true = true ∧
    svMoves { operands with sv := true, dlen := 0, host := [.writeReg .cmd 4] } false = true ∧
    svMoves { ready with host := [.reset] } false = true :=
  ⟨⟨_, rfl, rfl⟩, ⟨_, rfl, rfl, rfl⟩, ⟨_, rfl, rfl, by decide⟩, ⟨_, rfl, by decide, rfl⟩, by decide +kernel, by decide +kernel,
    by decide +kernel⟩

/-- A step of each class that the clauses name. -/
theorem witness_AccessTable :
    (∃ t, exec .encblk ready = .next t) ∧ (∃ t, exec .expkey operands = .next t) ∧
    (∃ t, exec .subbytes State.reset = .next t ∧ Instr.subbytes.isHost = false) ∧
    (∃ t, exec (.kexpcol 4) State.reset = .next t) ∧ (∃ t, exec .ststate State.reset = .next t) ∧
    (∀ c, Instr.encblk ≠ .kexpcol c) ∧ State.reset.nk = 4 :=
  ⟨⟨_, rfl⟩, ⟨_, rfl⟩, ⟨_, rfl, rfl⟩, ⟨_, rfl⟩, ⟨_, rfl⟩, fun _ => nofun, rfl⟩

/-- A read of STATUS with BUSY = 1; a read of OLEN; a read of the last byte of a result that fills DOUT. -/
theorem witness_StatusWordFields :
    (let s := { State.reset with busy := true, host := [.readReg .status] };
      s.seq = [] ∧ s.host = .readReg .status :: []) ∧
    (let s := { State.reset with olen := 16, host := [.readReg .olen] };
      s.seq = [] ∧ s.busy = false ∧ s.host = .readReg .olen :: []) ∧
    (let s := { State.reset with olen := 16, maxDlen := some 16, host := [.readByte (.buffer .dout) 15] };
      s.seq = [] ∧ s.busy = false ∧ s.fits s.olen = true ∧ 15 < s.olen ∧
        s.host = .readByte (.buffer .dout) 15 :: []) := by decide

theorem witness_SchedInfoNamesTheKeySize :
    ∃ s : State, Inv s ∧ s.sv = true ∧ s.seq = [] ∧ s.host = .readReg .schedinfo :: [] :=
  ⟨{ ready with nk := 8, nr := 14, host := [.readReg .schedinfo] },
    { idle := rfl, coreErr := by decide, keySize := by decide
      capacity := fun _ h => nomatch h
      keybufWf := rfl, dinWf := rfl, ivbufWf := rfl, doutWf := rfl
      keybufBelow := rfl, dinBelow := rfl, ivbufBelow := rfl, doutBelow := rfl
      result := fun _ h => absurd h (Nat.not_lt_zero _)
      resultFits := rfl }, rfl, rfl, rfl⟩

theorem witness_LengthRegistersTakeAnyValue :
    ∀ r ∈ [CReg.klen, .dlen, .ivlen],
      let s := { State.reset with host := [.writeReg r 20, .readReg r] }
      s.seq = [] ∧ s.busy = false ∧ s.host = .writeReg r 20 :: .readReg r :: [] := by decide

/-- The last byte of KEYBUF, of IVBUF and of a DIN of 16 bytes. -/
theorem witness_InputBuffersKeepTheByteWritten :
    ∀ p ∈ [(Buffer.keybuf, 31), (.ivbuf, 15), (.din, 15)],
      let s := { State.reset with maxDlen := some 16, host := [.writeByte (.buffer p.1) p.2 7, .readByte (.buffer p.1) p.2] }
      p.1 ≠ .dout ∧ s.seq = [] ∧ s.busy = false ∧ s.hasOffset (.buffer p.1) p.2 = true ∧
        s.host = .writeByte (.buffer p.1) p.2 7 :: .readByte (.buffer p.1) p.2 :: [] := by decide

/-- A write to STATUS; the last byte of a DOUT of 16 bytes; the last byte of SCHED. -/
theorem witness_WritesToReadOnlyPlacesAreIgnored :
    { State.reset with host := [.writeReg .status 9] }.host = .writeReg .status 9 :: [] ∧ State.reset.seq = [] ∧
    { State.reset with maxDlen := some 16 }.hasOffset (.buffer .dout) 15 = true ∧ 239 < 240 := by decide

theorem witness_HostMustNotActWhileBusy :
    ∀ m ∈ [HostMove.writeReg .cmd 1, .writeReg .klen 16, .writeByte (.buffer .din) 0 0, .readReg .olen, .readReg .schedinfo,
        .readByte (.buffer .dout) 0, .readByte .sched 0],
      let s := { State.reset with busy := true, host := [m] }
      s.host = m :: [] ∧ s.seq = [] ∧ s.busy = true := by decide

/-- The first offset each space does not have. -/
theorem witness_OffsetsBeyondCapacityFault :
    let s := { State.reset with maxDlen := some 16, host := [.readByte (.buffer .keybuf) 32] }
    s.seq = [] ∧ s.busy = false ∧ 32 ≤ 32 ∧ 16 ≤ 16 ∧ 240 ≤ 240 ∧ s.maxDlen = some 16 ∧
      s.host = .readByte (.buffer .keybuf) 32 :: [] := by decide

end Sys2Proof.Tests
end

section
/-! The host's port: what the host's next move does, and what BUSY forbids. -/

namespace Sys2Proof.Machine

/-- With nothing on the unit-operation bus and no reset waiting, BUSY alone decides between refusing the host's next move and
making it (R62, R296). -/
theorem step_of_hostMove {s : State} {m : HostMove} {rest : List HostMove} (hhost : s.host = m :: rest) (hseq : s.seq = [])
    (hm : m ≠ .reset) :
    step s = if s.busy && m.needsIdle then .refused .hostWhileBusy else { s with host := rest }.hostMove exec m := by
  cases m with
  | reset => exact absurd rfl hm
  | writeReg | readReg | writeByte | readByte => simp only [step, stepWith, hhost, hseq]

theorem HostMove.ne_reset_of_needsIdle {m : HostMove} (h : m.needsIdle = true) : m ≠ .reset := by
  rintro rfl
  cases h

theorem step_refused_of_needsIdle {s : State} {m : HostMove} {rest : List HostMove} (hhost : s.host = m :: rest)
    (hseq : s.seq = []) (hbusy : s.busy = true) (h : m.needsIdle = true) : step s = .refused .hostWhileBusy := by
  rw [step_of_hostMove hhost hseq (HostMove.ne_reset_of_needsIdle h), hbusy, h]
  rfl

/-- Settles O58: each of the moves listed is one that needs the idle engine. -/
theorem hostMustNotActWhileBusy : Obligations.HostMustNotActWhileBusy := by
  unfold Obligations.HostMustNotActWhileBusy
  intro s m rest hhost hseq hbusy hm
  refine step_refused_of_needsIdle hhost hseq hbusy ?_
  obtain ⟨_, rfl | rfl | rfl | rfl⟩ | ⟨_, _, rfl | rfl | rfl⟩ | rfl | rfl | ⟨_, rfl | rfl⟩ := hm <;> rfl

end Sys2Proof.Machine
end

section
/-! Field arithmetic: `xtime` as a number, and the loop of `gmul` as a fold over the bit positions of the multiplier. -/

namespace Sys2Proof.Machine

/-- Shifting left drops the top bit, so it doubles modulo 256; the bit dropped says whether the byte is 128 or more (R112). -/
theorem xtime_toNat (a : Byte) :
    (xtime a).toNat = (2 * a.toNat % 256) ^^^ (if 128 ≤ a.toNat then 0x1b else 0x00) := by
  have hshift : (a <<< 1).toNat = 2 * a.toNat % 256 := by
    rw [BitVec.toNat_shiftLeft, Nat.shiftLeft_eq, Nat.mul_comm]
  have hmsb : a.msb = decide (128 ≤ a.toNat) := BitVec.msb_eq_decide a
  simp only [xtime, BitVec.toNat_xor, hshift, hmsb, decide_eq_true_eq, apply_ite BitVec.toNat]
  rfl

/-- The product after bit `i` of the multiplier: R113's `p ^ xtime^i(a)` where the bit is set, `p` where it is not. -/
def gmulAddBit (a m p : Byte) (i : Nat) : Byte :=
  if m.getLsbD i then p ^^^ Nat.repeat xtime i a else p

/-- What the loop keeps: at bit `i` the shifted operand is `xtime^i(a)`. So the iterations left add the bits from `i` on. -/
theorem gmulLoop_eq_foldl (a m : Byte) (n i : Nat) (p : Byte) :
    gmulLoop m n i p (Nat.repeat xtime i a) = (List.range' i n).foldl (gmulAddBit a m) p := by
  induction n generalizing i p with
  | zero => rfl
  | succ n ih =>
    rw [List.range'_succ, List.foldl_cons]
    exact ih (i + 1) (gmulAddBit a m p i)

theorem gmul_eq_foldl (a m : Byte) : gmul a m = (List.range 8).foldl (gmulAddBit a m) 0x00 := by
  rw [List.range_eq_range']
  exact gmulLoop_eq_foldl a m 8 0 0x00

/-- Settles O10, from the value of `xtime` and the loop of `gmul` as a fold. -/
theorem xtimeAndGmulByDefinition : Obligations.XtimeAndGmulByDefinition := by
  unfold Obligations.XtimeAndGmulByDefinition
  exact ⟨xtime_toNat, gmul_eq_foldl⟩

end Sys2Proof.Machine
end

section
/-! The key schedule: a fold that writes columns upwards, KEXPCOL's rule as one equation, and from them what LDKEY, KEXPCOL and
EXPKEY leave in W (R133, R135, R137, R138). -/

namespace Sys2Proof.Machine

/-! ### Columns written upwards -/

/-- Columns `a` to `a + n - 1` written in that order, each with what `f` gives from the schedule so far. -/
def fillColumns (f : Sched → Nat → Column) (a n : Nat) (w : Sched) : Sched :=
  (List.range' a n).foldl (fun v c => schedSet v c (f v c)) w

/-- From column `a` on, what `f` gives for a column depends on the columns below it only. -/
def ReadsBelow (f : Sched → Nat → Column) (a : Nat) : Prop :=
  ∀ v w c, a ≤ c → (∀ d, d < c → schedCol v d = schedCol w d) → f v c = f w c

theorem fillColumns_succ (f : Sched → Nat → Column) (a n : Nat) (w : Sched) :
    fillColumns f a (n + 1) w = schedSet (fillColumns f a n w) (a + n) (f (fillColumns f a n w) (a + n)) := by
  simp [fillColumns, List.range'_concat]

theorem schedCol_fillColumns_outside (f : Sched → Nat → Column) (a n : Nat) (w : Sched) {c : Nat} (h : c < a ∨ a + n ≤ c) :
    schedCol (fillColumns f a n w) c = schedCol w c := by
  induction n with
  | zero => rfl
  | succ n ih => rw [fillColumns_succ, schedCol_schedSet_other _ _ _ _ (by omega), ih (by omega)]

/-- A write changes no column below it, so each column written still is what `f` gives from the finished schedule. -/
theorem schedCol_fillColumns_inside {f : Sched → Nat → Column} {a n c : Nat} (w : Sched) (hf : ReadsBelow f a)
    (hn : a + n ≤ 60) (ha : a ≤ c) (hc : c < a + n) :
    schedCol (fillColumns f a n w) c = f (fillColumns f a n w) c := by
  induction n with
  | zero => omega
  | succ n ih =>
    have below : ∀ d, d < a + n → schedCol (fillColumns f a n w) d = schedCol (fillColumns f a (n + 1) w) d := fun d hd => by
      rw [fillColumns_succ, schedCol_schedSet_other _ _ _ _ (by omega)]
    rw [← hf _ _ c ha fun d hd => below d (by omega)]
    rcases Nat.lt_succ_iff_lt_or_eq.1 (show c < a + n + 1 from hc) with hlt | rfl
    · rw [← below c hlt, ih (by omega) hlt]
    · rw [fillColumns_succ, schedCol_schedSet_same _ _ _ (by omega)]

/-! ### KEXPCOL's rule -/

/-- The three cases of R135 are those of `nextColumn`. -/
theorem columnRule_iff (w : Sched) (nk c : Nat) : ColumnRule w nk c ↔ schedCol w c = nextColumn w nk c := by
  unfold ColumnRule nextColumn
  by_cases h0 : c % nk = 0
  · simp [h0]
  · by_cases h4 : 6 < nk ∧ c % nk = 4 <;> simp [h0, h4]

/-- Column `c` is derived from the columns `c - 1` and `c - nk`. -/
theorem nextColumn_readsBelow {nk : Nat} (h : 0 < nk) : ReadsBelow (nextColumn · nk) nk := by
  intro v w c hc hvw
  simp only [nextColumn, hvw (c - 1) (by omega), hvw (c - nk) (by omega)]

theorem columnRule_expandColumn (w : Sched) {nk c : Nat} (h : 0 < nk) (hc : nk ≤ c) (hlt : c < 60) :
    ColumnRule (expandColumn nk w c) nk c := by
  rw [columnRule_iff, expandColumn, schedCol_schedSet_same _ _ _ hlt]
  exact nextColumn_readsBelow h _ _ c hc fun d hd => (schedCol_schedSet_other _ _ _ _ (by omega)).symm

/-- The bounds that every legal pair NK, NR meets (R22, R23). -/
theorem bounds_of_keySizeOk {nk nr : BitVec 4} (h : keySizeOk nk nr = true) : 0 < nk.toNat ∧ nr.toNat ≤ 14 := by
  rcases (keySizeOk_iff nk nr).1 h with ⟨rfl, rfl⟩ | ⟨rfl, rfl⟩ | ⟨rfl, rfl⟩ <;> decide

/-- ARG in bits 15:8, CLASS in bit 7, FUNC in bits 3:0 (R80). -/
theorem packWord_toNat (arg : BitVec 8) (cls : Bool) (func : BitVec 4) :
    (packWord arg cls func).toNat = 256 * arg.toNat + 128 * cls.toNat + func.toNat := by
  have hrsv : (0 : BitVec 3).toNat = 0 := rfl
  have hcls : cls.toNat ≤ 1 := Bool.toNat_le cls
  have hfunc : func.toNat < 2 ^ 4 := func.isLt
  simp only [packWord, BitVec.toNat_append, BitVec.toNat_ofBool, hrsv]
  rw [← Nat.shiftLeft_add_eq_or_of_lt (by omega), ← Nat.shiftLeft_add_eq_or_of_lt (by omega),
    ← Nat.shiftLeft_add_eq_or_of_lt (by omega)]
  omega

theorem exec_kexpcol_of_inRange {s : State} {c : BitVec 8} (hk : keySizeOk s.nk s.nr = true) (hnk : s.nk.toNat ≤ c.toNat)
    (hc : c.toNat < 4 * (s.nr.toNat + 1)) :
    exec (.kexpcol c) s = .next { s with w := expandColumn s.nk.toNat s.w c.toNat } := by
  rw [← deriveColumn_of_columnCountOk s _ (columnCountOk_of_keySizeOk _ _ hk)]
  exact if_pos ((columnArgOk_iff _ _ _).2 ⟨hnk, hc⟩)

/-- Settles O27: the column set is the rule's, and setting it changes neither of the columns it is derived from. -/
theorem kexpcolDerivesItsColumn : Obligations.KexpcolDerivesItsColumn := by
  unfold Obligations.KexpcolDerivesItsColumn
  refine ⟨fun c => packWord_toNat c true 1, fun s c hk hnk hc =>
    ⟨_, exec_kexpcol_of_inRange hk hnk hc, rfl, fun _ _ => rfl, ?_, ?_⟩⟩
  · obtain ⟨hpos, hnr⟩ := bounds_of_keySizeOk hk
    exact columnRule_expandColumn s.w hpos hnk (by omega)
  · exact fun d hd => schedCol_schedSet_other _ _ _ _ hd.symm

/-! ### LDKEY and EXPKEY -/

/-- A legal key length's NK and NR fit their registers (R8, R133). -/
theorem keySize_of_keyLength {n : Nat} (h : n = 16 ∨ n = 24 ∨ n = 32) :
    (BitVec.ofNat 4 (n / 4)).toNat = n / 4 ∧ (BitVec.ofNat 4 (n / 4 + 6)).toNat = n / 4 + 6 ∧ 0 < n / 4 ∧ n / 4 ≤ 8 := by
  rcases h with rfl | rfl | rfl <;> decide

/-- LDKEY writes the key's columns upwards from column 0 (R133). -/
theorem loadKey_w_eq_fillColumns (s : State) :
    s.loadKey.w = fillColumns (fun _ c => s.keyColumn c) 0 (s.klen / 4) s.w := by
  rw [loadKey_w, List.range_eq_range']
  rfl

theorem schedCol_loadKey_of_lt (s : State) {c : Nat} (hk : s.klen / 4 ≤ 60) (hc : c < s.klen / 4) :
    schedCol s.loadKey.w c = s.keyColumn c := by
  rw [loadKey_w_eq_fillColumns]
  exact schedCol_fillColumns_inside s.w (fun _ _ _ _ _ => rfl) (by omega) c.zero_le (by omega)

theorem schedCol_loadKey_of_le (s : State) {c : Nat} (hc : s.klen / 4 ≤ c) : schedCol s.loadKey.w c = schedCol s.w c := by
  rw [loadKey_w_eq_fillColumns]
  exact schedCol_fillColumns_outside _ _ _ _ (by omega)

/-- Settles O25: the columns below NK are the key's, the others are not written. -/
theorem ldkeyLoadsTheKeyColumns : Obligations.LdkeyLoadsTheKeyColumns := by
  unfold Obligations.LdkeyLoadsTheKeyColumns
  refine ⟨by decide, fun s hk => ⟨s.loadKey, if_pos ((keyLengthOk_iff _).2 hk), rfl, fun _ _ => rfl, ?_⟩⟩
  obtain ⟨hnk, hnr, -, hle⟩ := keySize_of_keyLength hk
  simp only [loadKey_nk, loadKey_nr, hnk, hnr, true_and]
  refine ⟨fun c r hc => ?_, fun c hc => schedCol_loadKey_of_le s hc⟩
  rw [schedCol_loadKey_of_lt s (by omega) hc, State.keyColumn, loadColumn_get]

theorem expandColumns_eq_fillColumns (nk nr : BitVec 4) (w : Sched) :
    expandColumns nk nr w = fillColumns (nextColumn · nk.toNat) nk.toNat (usedCols nr - nk.toNat) w := rfl

/-- EXPKEY's schedule: the key's columns, and the derived ones written upwards over them (R137). -/
theorem expandKey_w_eq_fillColumns {s : State} (hk : s.klen = 16 ∨ s.klen = 24 ∨ s.klen = 32) :
    s.expandKey.w = fillColumns (nextColumn · (s.klen / 4)) (s.klen / 4) (4 * (s.klen / 4 + 7) - s.klen / 4) s.loadKey.w := by
  obtain ⟨hnk, hnr, -, -⟩ := keySize_of_keyLength hk
  rw [expandKey_w, expandColumns_eq_fillColumns, usedCols, loadKey_nk, loadKey_nr, hnk, hnr]

theorem holdsSchedule_expandKey {s : State} (hk : s.klen = 16 ∨ s.klen = 24 ∨ s.klen = 32) : HoldsSchedule s s.expandKey := by
  obtain ⟨hnk, hnr, hpos, hle⟩ := keySize_of_keyLength hk
  refine ⟨hnk, hnr, fun c r hc => ?_, fun c hc hlt => ?_⟩
  · rw [expandKey_w_eq_fillColumns hk, schedCol_fillColumns_outside _ _ _ _ (.inl hc),
      schedCol_loadKey_of_lt s (by omega) hc, State.keyColumn, loadColumn_get]
  · rw [columnRule_iff, expandKey_w_eq_fillColumns hk]
    exact schedCol_fillColumns_inside _ (nextColumn_readsBelow hpos) (by omega) hc (by omega)

theorem schedCol_expandKey_beyond {s : State} (hk : s.klen = 16 ∨ s.klen = 24 ∨ s.klen = 32) {c : Nat}
    (hc : 4 * (s.klen / 4 + 7) ≤ c) : schedCol s.expandKey.w c = schedCol s.w c := by
  rw [expandKey_w_eq_fillColumns hk, schedCol_fillColumns_outside _ _ _ _ (by omega), schedCol_loadKey_of_le s (by omega)]

theorem exec_expkey_of_keyLength {s : State} (hk : s.klen = 16 ∨ s.klen = 24 ∨ s.klen = 32) :
    exec .expkey s = .next ((s.expandKey.setSv true).complete 0) :=
  if_pos ((keyLengthOk_iff _).2 hk)

theorem exec_expkey_of_not_keyLength {s : State} (hk : ¬ (s.klen = 16 ∨ s.klen = 24 ∨ s.klen = 32)) :
    exec .expkey s = .next (s.raiseError .invalidKeyLength) :=
  if_neg (mt (keyLengthOk_iff _).1 hk)

/-- Settles O28, from the columns LDKEY loads and the ones derived above them. -/
theorem expkeyBuildsTheSchedule : Obligations.ExpkeyBuildsTheSchedule := by
  unfold Obligations.ExpkeyBuildsTheSchedule
  exact ⟨by decide, fun s =>
    ⟨fun hk => ⟨_, exec_expkey_of_keyLength hk, rfl, fun _ _ => rfl, holdsSchedule_expandKey hk,
      fun c hc => schedCol_expandKey_beyond hk hc⟩,
    exec_expkey_of_not_keyLength⟩⟩

/-! ### Determinism -/

/-- The key fixes the schedule, column by column: a key column is four key bytes, a derived one has its value by R135 from
columns below it. -/
theorem schedCol_eq_of_holdsSchedule {s u t v : State} (ht : HoldsSchedule s t) (hv : HoldsSchedule u v)
    (hklen : s.klen = u.klen) (hpos : 0 < s.klen / 4)
    (hkey : ∀ off, off < s.klen → s.loadByte .keybuf off = u.loadByte .keybuf off) {c : Nat} (hc : c < 4 * (s.klen / 4 + 7)) :
    schedCol t.w c = schedCol v.w c := by
  obtain ⟨-, -, htkey, htrule⟩ := ht
  obtain ⟨-, -, hvkey, hvrule⟩ := hv
  rw [← hklen] at hvkey hvrule
  induction c using Nat.strongRecOn with
  | _ c ih =>
    rcases Nat.lt_or_ge c (s.klen / 4) with hlt | hge
    · exact Column.ext_get fun r => by rw [htkey c r hlt, hvkey c r hlt, hkey _ (by omega)]
    · rw [(columnRule_iff ..).1 (htrule c hge hc), (columnRule_iff ..).1 (hvrule c hge hc)]
      exact nextColumn_readsBelow hpos _ _ c hge fun d hd => ih d hd (by omega)

/-- Settles O31: a completing EXPKEY had a legal key length, and then both schedules hold the same key. -/
theorem expansionDependsOnTheKeyAlone : Obligations.ExpansionDependsOnTheKeyAlone := by
  unfold Obligations.ExpansionDependsOnTheKeyAlone
  intro s u t v hklen hkey ht hv herr
  by_cases hk : s.klen = 16 ∨ s.klen = 24 ∨ s.klen = 32
  · have hu : u.klen = 16 ∨ u.klen = 24 ∨ u.klen = 32 := hklen ▸ hk
    obtain ⟨-, hnr, hpos, -⟩ := keySize_of_keyLength hk
    rw [exec_expkey_of_keyLength hk] at ht
    rw [exec_expkey_of_keyLength hu] at hv
    cases ht
    cases hv
    refine ⟨rfl, by simp [hklen], by simp [hklen], fun c hc => ?_⟩
    exact schedCol_eq_of_holdsSchedule (holdsSchedule_expandKey hk) (holdsSchedule_expandKey hu) hklen hpos hkey
      (by simpa [hnr] using hc)
  · rw [exec_expkey_of_not_keyLength hk] at ht
    cases ht
    cases herr

end Sys2Proof.Machine
end

section
/-! The round transforms: each byte of S after a transform, what each unit operation answers, and from them the statements about
the unit operations that move or transform S (R160 to R178). -/

namespace Sys2Proof.Machine

/-! ### The bytes of a transformed matrix -/

@[simp] theorem subBytes_get (m : Mat) (r c : Fin 4) : (subBytes m).get r c = sbox (m.get r c) := Mat.get_ofFn _ r c

@[simp] theorem invSubBytes_get (m : Mat) (r c : Fin 4) : (invSubBytes m).get r c = invSbox (m.get r c) := Mat.get_ofFn _ r c

@[simp] theorem shiftRows_get (m : Mat) (r c : Fin 4) : (shiftRows m).get r c = m.get r (c + r) := Mat.get_ofFn _ r c

@[simp] theorem invShiftRows_get (m : Mat) (r c : Fin 4) : (invShiftRows m).get r c = m.get r (c - r) := Mat.get_ofFn _ r c

@[simp] theorem addRoundKey_get (w : Sched) (k : Nat) (m : Mat) (r c : Fin 4) :
    (addRoundKey w k m).get r c = m.get r c ^^^ (schedCol w (4 * k + c.val)).get r := by
  rw [addRoundKey, Mat.get_ofFn, roundKey_get]

theorem mixWith_get (x m : Mat) (i c : Fin 4) :
    (mixWith x m).get i c =
      gmul (m.get 0 c) (x.get i 0) ^^^ gmul (m.get 1 c) (x.get i 1) ^^^ gmul (m.get 2 c) (x.get i 2) ^^^
        gmul (m.get 3 c) (x.get i 3) := Mat.get_ofFn _ i c

/-- `MIX` is circulant (R170). -/
theorem mix_get (i k : Fin 4) : mix.get i k = if k = i then 0x02 else if k = i + 1 then 0x03 else 0x01 := by
  decide +revert

/-- `INV_MIX` is circulant (R173). -/
theorem invMix_get (i k : Fin 4) :
    invMix.get i k = if k = i then 0x0e else if k = i + 1 then 0x0b else if k = i + 2 then 0x0d else 0x09 := by
  decide +revert

/-! ### The multipliers of `MIX` (R114) -/

theorem gmul_one (a : Byte) : gmul a 0x01 = a := by
  simp [gmul, gmulLoop]

theorem gmul_two (a : Byte) : gmul a 0x02 = xtime a := by
  simp [gmul, gmulLoop]

theorem gmul_three (a : Byte) : gmul a 0x03 = xtime a ^^^ a := by
  simp [gmul, gmulLoop, BitVec.xor_comm]

/-! ### Blocks and matrices -/

/-- `i ↦ (i mod 4, i div 4)` is inverted by `(r, c) ↦ r + 4c` (R162). -/
theorem blockOfMat_matOfBlock (b : Block) : blockOfMat (matOfBlock b) = b :=
  Block.ext_getElem fun i hi => by
    simp only [blockOfMat_getElem, matOfBlock_get, Nat.mod_add_div]

theorem matOfBlock_blockOfMat (m : Mat) : matOfBlock (blockOfMat m) = m :=
  Mat.ext_get fun r c => by
    have hrow : (r.val + 4 * c.val) % 4 = r.val := by omega
    have hcol : (r.val + 4 * c.val) / 4 = c.val := by omega
    simp only [matOfBlock_get, blockOfMat_getElem, hrow, hcol]

/-! ### What each unit operation answers -/

theorem exec_ldstate (s : State) : exec .ldstate s = .next { s with mat := matOfBlock s.blkIn } := rfl

theorem exec_ststate (s : State) : exec .ststate s = .next { s with blkOut := blockOfMat s.mat } := rfl

theorem exec_subbytes (s : State) : exec .subbytes s = .next (s.onMat subBytes) := rfl

theorem exec_invsubbytes (s : State) : exec .invsubbytes s = .next (s.onMat invSubBytes) := rfl

theorem exec_shiftrows (s : State) : exec .shiftrows s = .next (s.onMat shiftRows) := rfl

theorem exec_invshiftrows (s : State) : exec .invshiftrows s = .next (s.onMat invShiftRows) := rfl

theorem exec_mixcolumns (s : State) : exec .mixcolumns s = .next (s.onMat mixColumns) := rfl

theorem exec_invmixcolumns (s : State) : exec .invmixcolumns s = .next (s.onMat invMixColumns) := rfl

theorem exec_addroundkey_of_le {s : State} {k : BitVec 8} (hk : k.toNat ≤ s.nr.toNat) :
    exec (.addroundkey k) s = .next (s.onMat (addRoundKey s.w k.toNat)) :=
  if_pos ((roundArgOk_iff _ _).2 hk)

theorem sameBuffers_onMat (s : State) (f : Mat → Mat) : SameBuffers s (s.onMat f) := fun _ _ => rfl

/-! ### The statements -/

/-- Settles O15: byte `i` of a block stands at row `i mod 4`, column `i div 4` of its matrix. -/
theorem loadAndStoreStateColumnMajor : Obligations.LoadAndStoreStateColumnMajor := by
  unfold Obligations.LoadAndStoreStateColumnMajor
  refine ⟨by decide, by decide, fun s => ⟨?_, ?_⟩⟩
  · refine ⟨_, exec_ldstate s, rfl, fun _ _ => rfl, fun i _ => ?_⟩
    simp only [matOfBlock_get, Nat.mod_add_div]
  · exact ⟨_, exec_ststate s, rfl, fun _ _ => rfl, blockOfMat_getElem s.mat⟩

/-- Settles O16: the block's matrix and the matrix's block are inverse maps. -/
theorem loadAndStoreStateAreInverse : Obligations.LoadAndStoreStateAreInverse := by
  unfold Obligations.LoadAndStoreStateAreInverse
  exact fun s =>
    ⟨⟨_, _, exec_ldstate s, exec_ststate _, blockOfMat_matOfBlock s.blkIn⟩,
      ⟨_, _, exec_ststate s, exec_ldstate _, matOfBlock_blockOfMat s.mat⟩⟩

/-- Settles O17, from the bytes of the substituted matrix. -/
theorem substitutionActsOnEveryByte : Obligations.SubstitutionActsOnEveryByte := by
  unfold Obligations.SubstitutionActsOnEveryByte
  exact ⟨by decide, by decide, fun s =>
    ⟨⟨_, exec_subbytes s, rfl, sameBuffers_onMat s _, subBytes_get s.mat⟩,
      ⟨_, exec_invsubbytes s, rfl, sameBuffers_onMat s _, invSubBytes_get s.mat⟩⟩⟩

/-- Settles O18: the sum and the difference in `Fin 4` are those modulo 4. -/
theorem shiftRowsRotatesTheRows : Obligations.ShiftRowsRotatesTheRows := by
  unfold Obligations.ShiftRowsRotatesTheRows
  refine ⟨by decide, by decide, fun s =>
    ⟨⟨_, exec_shiftrows s, rfl, sameBuffers_onMat s _, shiftRows_get s.mat⟩,
      ⟨_, exec_invshiftrows s, rfl, sameBuffers_onMat s _, fun r c => ?_⟩⟩⟩
  have hcol : c - r = ⟨(c.val + 4 - r.val) % 4, by omega⟩ := Fin.ext (by simp only [Fin.val_sub]; omega)
  rw [← hcol]
  exact invShiftRows_get s.mat r c

/-- Settles O19: row `i` of `MIX`, and its multipliers written out with `xtime`. -/
theorem mixColumnsMixesEachColumn : Obligations.MixColumnsMixesEachColumn := by
  unfold Obligations.MixColumnsMixesEachColumn
  refine ⟨by decide, fun s => ⟨_, exec_mixcolumns s, rfl, sameBuffers_onMat s _, ?_⟩⟩
  rintro c _ _ _ _ rfl rfl rfl rfl
  simp only [onMat_mat, mixColumns, mixWith_get, mix_get, Fin.reduceEq, Fin.reduceAdd, reduceIte,
    gmul_one, gmul_two, gmul_three, and_self]

/-- Settles O20: row `i` of `INV_MIX`. -/
theorem invMixColumnsMixesEachColumn : Obligations.InvMixColumnsMixesEachColumn := by
  unfold Obligations.InvMixColumnsMixesEachColumn
  refine ⟨by decide, fun s => ⟨_, exec_invmixcolumns s, rfl, sameBuffers_onMat s _, ?_⟩⟩
  rintro c _ _ _ _ rfl rfl rfl rfl
  simp [invMixColumns, mixWith_get, invMix_get]

/-- Settles O23: ARG is in its range, and round key `k` has schedule column `4k + c` as its column `c`. -/
theorem addRoundKeyXorsTheRoundKey : Obligations.AddRoundKeyXorsTheRoundKey := by
  unfold Obligations.AddRoundKeyXorsTheRoundKey
  exact ⟨fun k => packWord_toNat k true 10, fun s k hk _ =>
    ⟨_, exec_addroundkey_of_le hk, rfl, sameBuffers_onMat s _, addRoundKey_get s.w k.toNat s.mat⟩⟩

end Sys2Proof.Machine
end

section
/-! The block commands ENCBLK and DECBLK: the schedule check, which comes before the check of DLEN. -/

namespace Sys2Proof.Machine

theorem exec_encblk (s : State) : exec .encblk s = s.blockCommand encBlock := rfl

theorem exec_decblk (s : State) : exec .decblk s = s.blockCommand decBlock := rfl

/-- Of the outcomes of a block command only the refusal has SV = 0, and it does not depend on DLEN (R203). -/
theorem blockCommand_refused_of_noSchedule {s : State} (hsv : s.sv = false) (f : Sched → Nat → Block → Block) :
    s.blockCommand f = .refused .noSchedule := by
  obtain ⟨-, hrefused⟩ | ⟨hsv', -⟩ | ⟨hsv', -⟩ := blockCommand_cases s f
  · exact hrefused
  · exact absurd (hsv.symm.trans hsv') Bool.false_ne_true
  · exact absurd (hsv.symm.trans hsv') Bool.false_ne_true

/-- Settles O33: both commands are `State.blockCommand`, whose schedule check comes first. -/
theorem blockCommandsNeedASchedule : Obligations.BlockCommandsNeedASchedule := by
  unfold Obligations.BlockCommandsNeedASchedule
  intro s hsv
  rw [exec_encblk, exec_decblk]
  exact ⟨blockCommand_refused_of_noSchedule hsv encBlock, blockCommand_refused_of_noSchedule hsv decBlock⟩

end Sys2Proof.Machine
end

section
/-! The inverse transforms undo the forward ones (R166, R169, R175, R177); hence a decryption round undoes an encryption round, and
`decBlock` undoes `encBlock` under the same round keys (R205). -/

namespace Sys2Proof.Machine

/-! ### Substitution and rotation -/

theorem invSbox_sbox (a : Byte) : invSbox (sbox a) = a := by decide +revert

theorem invSubBytes_subBytes (m : Mat) : invSubBytes (subBytes m) = m :=
  Mat.ext_get fun r c => by rw [invSubBytes_get, subBytes_get, invSbox_sbox]

theorem column_sub_add_cancel (r c : Fin 4) : c - r + r = c := by
  decide +revert

theorem invShiftRows_shiftRows (m : Mat) : invShiftRows (shiftRows m) = m :=
  Mat.ext_get fun r c => by rw [invShiftRows_get, shiftRows_get, column_sub_add_cancel]

/-! ### Mixing -/

/-- The bits shifted out add, and so do the reductions they cause. -/
theorem xtime_xor (a b : Byte) : xtime (a ^^^ b) = xtime a ^^^ xtime b := by
  have reduction (p q : Bool) : (if (p ^^ q) then 0x1b else 0x00 : Byte) =
      (if p then 0x1b else 0x00) ^^^ (if q then 0x1b else 0x00) := by
    decide +revert
  simp only [xtime, BitVec.shiftLeft_xor_distrib, BitVec.msb_xor, reduction]
  ac_rfl

theorem gmul_nine (a : Byte) : gmul a 0x09 = xtime (xtime (xtime a)) ^^^ a := by
  simp [gmul, gmulLoop, BitVec.xor_comm]

theorem gmul_eleven (a : Byte) : gmul a 0x0b = xtime (xtime (xtime a)) ^^^ xtime a ^^^ a := by
  simp [gmul, gmulLoop, BitVec.xor_assoc, BitVec.xor_comm]

theorem gmul_thirteen (a : Byte) : gmul a 0x0d = xtime (xtime (xtime a)) ^^^ xtime (xtime a) ^^^ a := by
  simp [gmul, gmulLoop, BitVec.xor_assoc, BitVec.xor_comm]

theorem gmul_fourteen (a : Byte) : gmul a 0x0e = xtime (xtime (xtime a)) ^^^ xtime (xtime a) ^^^ xtime a := by
  simp [gmul, gmulLoop, BitVec.xor_assoc, BitVec.xor_comm]

/-- A byte of a mixed column: the first row of `MIX` times the old column's bytes, read downwards and around from its row on. -/
def mixByte (a b c d : Byte) : Byte := gmul a 0x02 ^^^ gmul b 0x03 ^^^ gmul c 0x01 ^^^ gmul d 0x01

/-- Likewise with the first row of `INV_MIX`. -/
def invMixByte (a b c d : Byte) : Byte := gmul a 0x0e ^^^ gmul b 0x0b ^^^ gmul c 0x0d ^^^ gmul d 0x09

/-- `MIX` is circulant, so every byte of the product is `mixByte` (R171). -/
theorem mixColumns_get (m : Mat) (i c : Fin 4) :
    (mixColumns m).get i c = mixByte (m.get i c) (m.get (i + 1) c) (m.get (i + 2) c) (m.get (i + 3) c) := by
  rw [mixColumns, mixWith_get]
  simp only [mix_get, mixByte]
  match i with
  | 0 => simp only [Fin.reduceEq, Fin.reduceAdd, reduceIte]
  | 1 | 2 | 3 => simp only [Fin.reduceEq, Fin.reduceAdd, reduceIte]; ac_rfl

/-- `INV_MIX` is circulant, so every byte of the product is `invMixByte` (R174). -/
theorem invMixColumns_get (m : Mat) (i c : Fin 4) :
    (invMixColumns m).get i c = invMixByte (m.get i c) (m.get (i + 1) c) (m.get (i + 2) c) (m.get (i + 3) c) := by
  rw [invMixColumns, mixWith_get]
  simp only [invMix_get, invMixByte]
  match i with
  | 0 => simp only [Fin.reduceEq, Fin.reduceAdd, reduceIte]
  | 1 | 2 | 3 => simp only [Fin.reduceEq, Fin.reduceAdd, reduceIte]; ac_rfl

/-- Written out with `xtime`, which is additive, the bytes but one `a` cancel in pairs: modulo `y^4 + 1` the product of the two
rows' polynomials is 1 with coefficients not yet reduced (R175). -/
theorem invMixByte_mixByte (a b c d : Byte) :
    invMixByte (mixByte a b c d) (mixByte b c d a) (mixByte c d a b) (mixByte d a b c) = a := by
  simp only [invMixByte, mixByte, gmul_one, gmul_two, gmul_three, gmul_nine, gmul_eleven, gmul_thirteen, gmul_fourteen,
    xtime_xor]
  ac_nf
  simp only [BitVec.xor_self, BitVec.xor_zero]

theorem row_add_assoc (i j k : Fin 4) : i + j + k = i + (j + k) := by
  decide +revert

theorem invMixColumns_mixColumns (m : Mat) : invMixColumns (mixColumns m) = m :=
  Mat.ext_get fun i c => by
    simp only [invMixColumns_get, mixColumns_get, row_add_assoc, Fin.reduceAdd, Fin.add_zero, invMixByte_mixByte]

/-! ### Round keys -/

theorem byte_xor_cancel_right (a b : Byte) : a ^^^ b ^^^ b = a := by
  rw [BitVec.xor_assoc, BitVec.xor_self, BitVec.xor_zero]

theorem addRoundKey_addRoundKey (w : Sched) (k : Nat) (m : Mat) : addRoundKey w k (addRoundKey w k m) = m :=
  Mat.ext_get fun r c => by rw [addRoundKey_get, addRoundKey_get, byte_xor_cancel_right]

/-! ### Rounds and blocks -/

theorem decRound_encRound (w : Sched) (k : Nat) (m : Mat) : decRound w (encRound w m k) k = m := by
  rw [decRound, encRound, addRoundKey_addRoundKey, invMixColumns_mixColumns, invShiftRows_shiftRows, invSubBytes_subBytes]

/-- The decryption rounds, from the last key to the first, undo the encryption rounds. -/
theorem foldl_decRound_foldl_encRound (w : Sched) (ks : List Nat) (m : Mat) :
    ks.reverse.foldl (decRound w) (ks.foldl (encRound w) m) = m := by
  induction ks generalizing m with
  | nil => rfl
  | cons k ks ih => rw [List.foldl_cons, List.reverse_cons, List.foldl_append, ih, List.foldl_cons, List.foldl_nil,
      decRound_encRound]

theorem decBlock_encBlock (w : Sched) (nr : Nat) (b : Block) : decBlock w nr (encBlock w nr b) = b := by
  simp only [decBlock, encBlock, matOfBlock_blockOfMat, addRoundKey_addRoundKey, invShiftRows_shiftRows,
    invSubBytes_subBytes, foldl_decRound_foldl_encRound, blockOfMat_matOfBlock]

/-! ### What `decBlock` reads of the schedule -/

/-- Round keys 0 to `nr` agree: all of the schedule that a block command reads (R204). -/
def SameRoundKeys (nr : Nat) (v w : Sched) : Prop := ∀ k, k ≤ nr → roundKey v k = roundKey w k

theorem addRoundKey_congr {nr : Nat} {v w : Sched} (h : SameRoundKeys nr v w) {k : Nat} (hk : k ≤ nr) :
    addRoundKey v k = addRoundKey w k := by
  funext m
  rw [addRoundKey, h k hk, addRoundKey]

theorem foldl_decRound_congr {nr : Nat} {v w : Sched} (h : SameRoundKeys nr v w) {ks : List Nat} (hks : ∀ k ∈ ks, k ≤ nr)
    (m : Mat) : ks.foldl (decRound v) m = ks.foldl (decRound w) m := by
  induction ks generalizing m with
  | nil => rw [List.foldl_nil, List.foldl_nil]
  | cons k ks ih =>
    obtain ⟨hk, hrest⟩ := List.forall_mem_cons.1 hks
    rw [List.foldl_cons, List.foldl_cons, ih hrest, decRound, addRoundKey_congr h hk, decRound]

theorem decBlock_congr {nr : Nat} {v w : Sched} (h : SameRoundKeys nr v w) : decBlock v nr = decBlock w nr := by
  have hfull : ∀ k ∈ (List.range' 1 (nr - 1)).reverse, k ≤ nr := fun k hk => by
    have := List.mem_range'_1.1 (List.mem_reverse.1 hk)
    omega
  funext b
  simp only [decBlock, foldl_decRound_congr h hfull, addRoundKey_congr h (Nat.le_refl nr), addRoundKey_congr h (Nat.zero_le nr)]

theorem decBlock_encBlock_of_sameRoundKeys {nr : Nat} {v w : Sched} (h : SameRoundKeys nr v w) (b : Block) :
    decBlock w nr (encBlock v nr b) = b := by
  rw [← decBlock_congr h, decBlock_encBlock]

/-- Expanding the same key gives the same round keys, whatever stood in W (R138). -/
theorem sameRoundKeys_expandKey {s u : State} (hk : s.klen = 16 ∨ s.klen = 24 ∨ s.klen = 32) (hklen : u.klen = s.klen)
    (hkey : ∀ off, off < s.klen → s.loadByte .keybuf off = u.loadByte .keybuf off) :
    SameRoundKeys s.expandKey.nr.toNat s.expandKey.w u.expandKey.w := by
  intro k hle
  obtain ⟨-, hnr, hpos, -⟩ := keySize_of_keyLength hk
  rw [expandKey_nr, hnr] at hle
  refine Mat.ext_get fun r c => ?_
  rw [roundKey_get, roundKey_get, schedCol_eq_of_holdsSchedule (holdsSchedule_expandKey hk)
    (holdsSchedule_expandKey (hklen ▸ hk)) hklen.symm hpos hkey (by omega)]

end Sys2Proof.Machine
end

section
/-! The bulk commands: in each mode decryption undoes encryption block by block; what a bulk command leaves when its operand checks
pass; and the round trip through DOUT and DIN (R221 to R230). -/

namespace Sys2Proof.Machine

/-! ### The modes on lists of blocks -/

@[simp] theorem xor16_getElem (x y : Block) (i : Nat) (h : i < 16) : (xor16 x y)[i] = x[i] ^^^ y[i] := by
  simp [xor16]

theorem xor16_xor16 (x y : Block) : xor16 (xor16 x y) y = x :=
  Block.ext_getElem fun i hi => by simp only [xor16_getElem, byte_xor_cancel_right]

theorem ecbBlocks_ecbBlocks {f g : Block → Block} (h : ∀ b, g (f b) = b) (x : List Block) :
    ecbBlocks g (ecbBlocks f x) = x := by
  simp [ecbBlocks, Function.comp_def, h]

/-- Both directions chain the same ciphertext block: the one produced is the one consumed. -/
theorem cbcDecBlocks_cbcEncBlocks {f g : Block → Block} (h : ∀ b, g (f b) = b) (cv : Block) (x : List Block) :
    cbcDecBlocks g cv (cbcEncBlocks f cv x) = x := by
  induction x generalizing cv with
  | nil => rfl
  | cons p rest ih => rw [cbcEncBlocks, cbcDecBlocks, ih, h, xor16_xor16]

/-! ### A bulk command whose operand checks pass -/

theorem exec_encecb (s : State) : exec .encecb s = s.bulkCommand false fun w nr _ x => ecbBlocks (encBlock w nr) x := rfl

theorem exec_dececb (s : State) : exec .dececb s = s.bulkCommand false fun w nr _ x => ecbBlocks (decBlock w nr) x := rfl

theorem exec_enccbc (s : State) : exec .enccbc s = s.bulkCommand true fun w nr iv x => cbcEncBlocks (encBlock w nr) iv x := rfl

theorem exec_deccbc (s : State) : exec .deccbc s = s.bulkCommand true fun w nr iv x => cbcDecBlocks (decBlock w nr) iv x := rfl

/-- The output blocks of a bulk command with the function `f`, which it gives the key's schedule (R221). -/
def State.outputBlocks (s : State) (f : Sched → Nat → Block → List Block → List Block) : List Block :=
  f s.expandKey.w s.expandKey.nr.toNat s.ivBlock s.dataBlocks

section

variable {cbc : Bool} {s : State} {f : Sched → Nat → Block → List Block → List Block}

/-- The state in which a completing bulk command with `f` ends (R221); `simp` unfolds it to read its fields. -/
@[simp] def State.afterBulk (s : State) (cbc : Bool) (f : Sched → Nat → Block → List Block → List Block) : State :=
  (s.expandKey.storeOut 0 (blocksBytes (s.outputBlocks f))).bulkEpilogue cbc

theorem bulkCommand_of_operandsOk (h : BulkOperandsOk cbc s)
    (f : Sched → Nat → Block → List Block → List Block) : s.bulkCommand cbc f = .next (s.afterBulk cbc f) := by
  obtain ⟨hfits, hlengths⟩ := h
  obtain ⟨hover, -⟩ | ⟨-, k, herr, -⟩ | ⟨-, -, hnext⟩ := bulkCommand_cases s cbc f
  · exact absurd (hfits.symm.trans hover) Bool.noConfusion
  · rw [(bulkError_none_iff s cbc).2 hlengths] at herr
    cases herr
  · exact hnext

theorem memRead_dout_afterBulk {i j : Nat} (hi : i < (s.outputBlocks f).length) (hj : j < 16) :
    memRead (s.afterBulk cbc f).dout (16 * i + j) = some (s.outputBlocks f)[i][j] := by
  rw [State.afterBulk, bulkEpilogue_dout, storeOut_dout, memRead_memWriteBytes, blocksBytes_length, if_pos (by omega),
    Nat.sub_zero, blocksBytes_getElem? _ _ _ hi hj]

theorem loadByte_dout_afterBulk {i j : Nat} (hi : i < (s.outputBlocks f).length) (hj : j < 16) :
    (s.afterBulk cbc f).loadByte .dout (16 * i + j) = (s.outputBlocks f)[i][j] := by
  rw [State.loadByte, cells_dout, memRead_dout_afterBulk hi hj, Option.getD_some]

/-! ### The result as the next command's data -/

/-- The host copies DOUT to DIN; `simp` unfolds it to read its fields. -/
@[simp] def State.resultToData (s : State) : State := { s with din := s.dout }

/-- The copied bytes are the result's, since every one of them has been written. -/
theorem dataBlocks_resultToData_afterBulk (hlen : (s.outputBlocks f).length = s.dlen / 16) :
    (s.afterBulk cbc f).resultToData.dataBlocks = s.outputBlocks f := by
  refine List.ext_getElem (by simp [hlen]) fun i _ hi => Block.ext_getElem fun j hj => ?_
  rw [dataBlocks_getElem, loadBlock_getElem, State.loadByte, cells_din, State.resultToData, memRead_dout_afterBulk hi hj,
    Option.getD_some]

theorem operandsOk_resultToData_afterBulk (h : BulkOperandsOk cbc s) :
    BulkOperandsOk cbc (s.afterBulk cbc f).resultToData := by
  simpa [BulkOperandsOk, fits_iff] using h

theorem ivBlock_resultToData_afterBulk : (s.afterBulk cbc f).resultToData.ivBlock = s.ivBlock :=
  Block.ext_getElem fun i hi => by
    rw [State.ivBlock, State.ivBlock, loadBlock_getElem, loadBlock_getElem]
    exact loadByte_congr (by simp) (by simp) _

/-- The command after a bulk command expands the same key, over the columns that its predecessor left free. -/
theorem sameRoundKeys_resultToData_afterBulk (hk : s.klen = 16 ∨ s.klen = 24 ∨ s.klen = 32) :
    SameRoundKeys s.expandKey.nr.toNat s.expandKey.w (s.afterBulk cbc f).resultToData.expandKey.w :=
  sameRoundKeys_expandKey hk (by simp) fun _ _ => loadByte_congr (by simp) (by simp) _

/-- A `dec` that undoes `enc` under the same round keys finds the data again. -/
theorem outputBlocks_resultToData_afterBulk {enc dec : Sched → Nat → Block → List Block → List Block}
    (hk : s.klen = 16 ∨ s.klen = 24 ∨ s.klen = 32) (hlen : ∀ w nr iv x, (enc w nr iv x).length = x.length)
    (hundo : ∀ v w nr iv x, SameRoundKeys nr v w → dec w nr iv (enc v nr iv x) = x) :
    (s.afterBulk cbc enc).resultToData.outputBlocks dec = s.dataBlocks := by
  have hnr : (s.afterBulk cbc enc).resultToData.expandKey.nr = s.expandKey.nr := by simp
  have hdata := dataBlocks_resultToData_afterBulk (cbc := cbc) (f := enc) (s := s)
    (by rw [State.outputBlocks, hlen, dataBlocks_length])
  rw [State.outputBlocks, hnr, hdata, ivBlock_resultToData_afterBulk]
  exact hundo _ _ _ _ _ (sameRoundKeys_resultToData_afterBulk hk)

/-- Byte `off` of the second result is byte `off mod 16` of block `off div 16` of the data. -/
theorem bulkCommand_roundTrip {enc dec : Sched → Nat → Block → List Block → List Block} (h : BulkOperandsOk cbc s)
    (hlen : ∀ w nr iv x, (enc w nr iv x).length = x.length)
    (hundo : ∀ v w nr iv x, SameRoundKeys nr v w → dec w nr iv (enc v nr iv x) = x) :
    ∃ t u, s.bulkCommand cbc enc = .next t ∧ { t with din := t.dout }.bulkCommand cbc dec = .next u ∧
      u.olen = s.dlen ∧ ∀ off, off < s.dlen → u.loadByte .dout off = s.loadByte .din off := by
  have ⟨_, hk, haligned, _⟩ := h
  refine ⟨_, _, bulkCommand_of_operandsOk h enc, bulkCommand_of_operandsOk (operandsOk_resultToData_afterBulk h) dec,
    by simp, fun off hoff => ?_⟩
  have hout := outputBlocks_resultToData_afterBulk (cbc := cbc) hk hlen hundo
  have hi : off / 16 < ((s.afterBulk cbc enc).resultToData.outputBlocks dec).length := by
    rw [hout, dataBlocks_length]
    omega
  rw [← Nat.div_add_mod off 16, loadByte_dout_afterBulk hi (Nat.mod_lt _ (by decide))]
  simp only [hout, dataBlocks_getElem, loadBlock_getElem]

end

/-- Settles O42: the two commands of each mode undo each other block by block, under the round keys of the one key. -/
theorem bulkRoundTrip : Obligations.BulkRoundTrip := by
  unfold Obligations.BulkRoundTrip
  simp only [exec_encecb, exec_dececb, exec_enccbc, exec_deccbc]
  refine ⟨fun s h => bulkCommand_roundTrip h (fun _ _ _ x => ecbBlocks_length _ x) ?_,
    fun s h => bulkCommand_roundTrip h (fun _ _ iv x => cbcEncBlocks_length _ iv x) ?_⟩
  · exact fun v w nr _ x hkeys => ecbBlocks_ecbBlocks (decBlock_encBlock_of_sameRoundKeys hkeys) x
  · exact fun v w nr iv x hkeys => cbcDecBlocks_cbcEncBlocks (decBlock_encBlock_of_sameRoundKeys hkeys) iv x

end Sys2Proof.Machine
end

section
/-! Errors: which check a command reports when several fail, and what a command that reports an error has written (R256, R257). -/

namespace Sys2Proof.Machine

/-! ### The order of a bulk command's checks -/

section

variable {s : State} {cbc : Bool}

theorem bulkError_of_not_keyLength (hk : ¬ (s.klen = 16 ∨ s.klen = 24 ∨ s.klen = 32)) :
    s.bulkError cbc = some .invalidKeyLength := by
  rw [← keyLengthOk_iff] at hk
  simp [State.bulkError, hk]

theorem bulkError_of_not_aligned (hk : s.klen = 16 ∨ s.klen = 24 ∨ s.klen = 32) (hd : s.dlen % 16 ≠ 0) :
    s.bulkError cbc = some .unalignedData := by
  rw [← keyLengthOk_iff] at hk
  rw [Ne, ← bulkLengthOk_iff] at hd
  simp [State.bulkError, hk, hd]

theorem bulkError_of_not_ivLength (hk : s.klen = 16 ∨ s.klen = 24 ∨ s.klen = 32) (hd : s.dlen % 16 = 0)
    (hiv : s.ivlen ≠ 16) : s.bulkError true = some .invalidIvSize := by
  rw [← keyLengthOk_iff] at hk
  rw [← bulkLengthOk_iff] at hd
  rw [Ne, ← ivLengthOk_iff] at hiv
  simp [State.bulkError, hk, hd, hiv]

theorem bulkCommand_of_bulkError {k : ErrKind} (hfits : s.fits s.dlen = true) (hk : s.bulkError cbc = some k)
    (f : Sched → Nat → Block → List Block → List Block) : s.bulkCommand cbc f = .next (s.raiseError k) := by
  simp [State.bulkCommand, hfits, hk]

end

/-! ### The commands by their shared operations -/

/-- Each bulk command is the shared one with a function of its own, which checks the IV length in CBC mode only (R221). -/
theorem exec_eq_bulkCommand {i : Instr} (hi : i.isBulk = true) :
    ∃ f, ∀ s, exec i s = s.bulkCommand (i == .enccbc || i == .deccbc) f := by
  cases i with
  | encecb => exact ⟨_, exec_encecb⟩
  | dececb => exact ⟨_, exec_dececb⟩
  | enccbc => exact ⟨_, exec_enccbc⟩
  | deccbc => exact ⟨_, exec_deccbc⟩
  | _ => cases hi

theorem exec_eq_blockCommand {i : Instr} (hi : i = .encblk ∨ i = .decblk) : ∃ f, ∀ s, exec i s = s.blockCommand f := by
  obtain rfl | rfl := hi
  · exact ⟨encBlock, fun _ => rfl⟩
  · exact ⟨decBlock, fun _ => rfl⟩

theorem exec_of_bulkError {i : Instr} {s : State} {k : ErrKind} (hi : i.isBulk = true) (hfits : s.fits s.dlen = true)
    (hk : s.bulkError (i == .enccbc || i == .deccbc) = some k) : exec i s = .next (s.raiseError k) := by
  obtain ⟨f, hf⟩ := exec_eq_bulkCommand hi
  rw [hf, bulkCommand_of_bulkError hfits hk]

theorem exec_refused_of_not_sv {i : Instr} {s : State} (hi : i = .encblk ∨ i = .decblk) (hsv : s.sv = false) :
    exec i s = .refused .noSchedule := by
  obtain ⟨f, hf⟩ := exec_eq_blockCommand hi
  rw [hf]
  simp [State.blockCommand, hsv]

theorem exec_of_not_blockLength {i : Instr} {s : State} (hi : i = .encblk ∨ i = .decblk) (hsv : s.sv = true)
    (hd : s.dlen ≠ 16) : exec i s = .next (s.raiseError .invalidBlockSize) := by
  obtain ⟨f, hf⟩ := exec_eq_blockCommand hi
  rw [Ne, ← blockLengthOk_iff] at hd
  rw [hf]
  simp [State.blockCommand, hsv, hd]

/-- Settles O48: a check that passes leaves the report to the next one in the order. -/
theorem firstFailingCheckIsReported : Obligations.FirstFailingCheckIsReported := by
  unfold Obligations.FirstFailingCheckIsReported
  refine fun s => ⟨exec_expkey_of_not_keyLength,
    fun i hi => ⟨exec_refused_of_not_sv hi, exec_of_not_blockLength hi⟩,
    fun i hi hfits => ⟨fun hk => ?_, fun hk hd => ?_, fun hcbc hk hd hiv => ?_⟩⟩
  · exact exec_of_bulkError hi hfits (bulkError_of_not_keyLength hk)
  · exact exec_of_bulkError hi hfits (bulkError_of_not_aligned hk hd)
  · have hneedsIv : (i == .enccbc || i == .deccbc) = true := by simpa using hcbc
    exact exec_of_bulkError hi hfits (hneedsIv ▸ bulkError_of_not_ivLength hk hd hiv)

/-! ### What an error writes -/

/-- A host command that completes reports no error, so one that reports an error has done what `raiseError` does and no more. -/
theorem eq_raiseError_of_err {i : Instr} {s t : State} (hi : i.isHost = true) (h : exec i s = .next t) (herr : t.err ≠ .none) :
    ∃ k, k ≠ .corruptPadding ∧ t = s.raiseError k := by
  obtain ⟨k, -, hk, -, rfl⟩ | ⟨-, -, rfl⟩ | ⟨-, -, -, _, -, rfl⟩ | ⟨-, -, -, _, -, rfl⟩ | ⟨hunit, -⟩ | ⟨rfl, -⟩ | ⟨_, rfl, -⟩ :=
    exec_cases i s t h
  · exact ⟨k, hk, rfl⟩
  · exact absurd (complete_err ..) herr
  · exact absurd (complete_err ..) herr
  · exact absurd (bulkEpilogue_err ..) herr
  · exact absurd (hi.symm.trans hunit) Bool.noConfusion
  · cases hi
  · cases hi

theorem loadByte_raiseError (s : State) (k : ErrKind) (b : Buffer) (off : Nat) :
    (s.raiseError k).loadByte b off = s.loadByte b off := by
  cases b <;> rfl

/-- Settles O49: `raiseError` writes the three fields named, and no command raises CorruptPadding. -/
theorem anErrorChangesNothingElse : Obligations.AnErrorChangesNothingElse := by
  unfold Obligations.AnErrorChangesNothingElse
  intro i s t hi h herr
  obtain ⟨k, hk, rfl⟩ := eq_raiseError_of_err hi h herr
  exact ⟨rfl, loadByte_raiseError s k, hk⟩

end Sys2Proof.Machine
end

section
/-! The host software around the core (R321 to R323): the pad count, UNPAD on bytes that end in a run of their count, and the
CBC framing. -/

namespace Sys2Proof.Machine

/-! ### Padding -/

theorem padCount_pos (x : List Byte) : 1 ≤ padCount x := by
  unfold padCount
  omega

theorem padCount_le (x : List Byte) : padCount x ≤ 16 := Nat.sub_le _ _

theorem length_pad (x : List Byte) : (pad x).length = x.length + padCount x := by
  simp [pad]

theorem length_pad_mod (x : List Byte) : (pad x).length % 16 = 0 := by
  rw [length_pad, padCount]
  omega

/-- UNPAD takes off any run of 1 to 255 bytes each holding the run's length, whatever stands before it: R322 does not bound the
count by 16, and 255 is the largest count that a byte holds. -/
theorem unpad_append_replicate (x : List Byte) {n : Nat} (hpos : 1 ≤ n) (hbyte : n < 256) :
    unpad (x ++ List.replicate n (BitVec.ofNat 8 n)) = .data x := by
  have hne : n ≠ 0 := Nat.ne_of_gt hpos
  have hlast : (x ++ List.replicate n (BitVec.ofNat 8 n)).getLast? = some (BitVec.ofNat 8 n) := by
    simp [List.getLast?_append, List.getLast?_replicate, hne]
  have hcount : (BitVec.ofNat 8 n).toNat = n := Nat.mod_eq_of_lt hbyte
  simp [unpad, hlast, hcount, hne]

/-! ### The CBC framing -/

theorem unframeCbc_frameCbc (iv : Block) (x : List Byte) : unframeCbc (frameCbc iv x) = some (iv.toList, x) := by
  have hiv : iv.toList.length = 16 := iv.length_toList
  have hlong : ¬ (iv.toList ++ x).length < 16 := by
    rw [List.length_append]
    omega
  rw [unframeCbc, frameCbc, if_neg hlong, List.take_left' hiv, List.drop_left' hiv]

/-- Settles O60: the pad count is from 1 to 16, so it fits in a byte and UNPAD reads it back from the last one. -/
theorem unpadUndoesPad : Obligations.UnpadUndoesPad := by
  unfold Obligations.UnpadUndoesPad
  refine ⟨fun x => ⟨padCount x, padCount_pos x, padCount_le x, rfl, length_pad_mod x, ?_⟩, unframeCbc_frameCbc⟩
  exact unpad_append_replicate x (padCount_pos x) (Nat.lt_of_le_of_lt (padCount_le x) (by decide))

end Sys2Proof.Machine
end

section
/-! The command word: its four fields take it apart and put it together, and from that each port decodes exactly the encoded
words of its class (R80 to R88). -/

namespace Sys2Proof

/-! ### The fields of a word as numbers (R80) -/

theorem wordArg_toNat (cw : Word) : (wordArg cw).toNat = cw.toNat / 256 := by
  have hword : cw.toNat < 65536 := cw.isLt
  rw [wordArg, BitVec.extractLsb'_toNat, Nat.shiftRight_eq_div_pow]
  omega

theorem wordClass_eq_decide (cw : Word) : wordClass cw = decide (cw.toNat / 128 % 2 = 1) := by
  rw [wordClass, BitVec.getLsbD, Nat.testBit_eq_decide_div_mod_eq]

theorem wordRsv_toNat (cw : Word) : (wordRsv cw).toNat = cw.toNat / 16 % 8 := by
  rw [wordRsv, BitVec.extractLsb'_toNat, Nat.shiftRight_eq_div_pow]

theorem wordFunc_toNat (cw : Word) : (wordFunc cw).toNat = cw.toNat % 16 := by
  rw [wordFunc, BitVec.extractLsb'_toNat, Nat.shiftRight_zero]

/-! ### A packed word -/

section

variable (arg : BitVec 8) (cls : Bool) (func : BitVec 4)

@[simp] theorem wordArg_packWord : wordArg (packWord arg cls func) = arg := by
  have hcls : cls.toNat ≤ 1 := Bool.toNat_le cls
  have hfunc : func.toNat < 16 := func.isLt
  refine BitVec.eq_of_toNat_eq ?_
  rw [wordArg_toNat, Machine.packWord_toNat]
  omega

@[simp] theorem wordClass_packWord : wordClass (packWord arg cls func) = cls := by
  have hfunc : func.toNat < 16 := func.isLt
  rw [wordClass_eq_decide, Machine.packWord_toNat]
  cases cls
  · simp only [Bool.toNat_false, decide_eq_false_iff_not]
    omega
  · simp only [Bool.toNat_true, decide_eq_true_eq]
    omega

@[simp] theorem wordRsv_packWord : wordRsv (packWord arg cls func) = 0 := by
  have hfunc : func.toNat < 16 := func.isLt
  refine BitVec.eq_of_toNat_eq ?_
  rw [wordRsv_toNat, Machine.packWord_toNat]
  change _ = 0
  omega

@[simp] theorem wordFunc_packWord : wordFunc (packWord arg cls func) = func := by
  have hfunc : func.toNat < 16 := func.isLt
  refine BitVec.eq_of_toNat_eq ?_
  rw [wordFunc_toNat, Machine.packWord_toNat]
  omega

end

/-- A word whose bits 6:4 are zero is packed from its other fields. -/
theorem packWord_fields {cw : Word} (hrsv : wordRsv cw = 0) :
    packWord (wordArg cw) (wordClass cw) (wordFunc cw) = cw := by
  have hword : cw.toNat < 65536 := cw.isLt
  have hbits : cw.toNat / 16 % 8 = 0 := by
    rw [← wordRsv_toNat, hrsv]
    rfl
  have hcls : (wordClass cw).toNat = cw.toNat / 128 % 2 := by
    rw [wordClass_eq_decide]
    rcases Nat.mod_two_eq_zero_or_one (cw.toNat / 128) with h | h <;> rw [h] <;> rfl
  refine BitVec.eq_of_toNat_eq ?_
  rw [Machine.packWord_toNat, wordArg_toNat, wordFunc_toNat, hcls]
  omega

/-! ### What a port decodes -/

theorem wordArg_of_noArg {cw : Word} {i j : Instr} (h : noArg cw i = .ok j) : wordArg cw = 0 ∧ i = j := by
  unfold noArg at h
  split at h
  · next harg => exact ⟨harg, Except.ok.inj h⟩
  · cases h

theorem packWord_of_func {cw : Word} {n : Nat} (hrsv : wordRsv cw = 0) (hfunc : (wordFunc cw).toNat = n) :
    packWord (wordArg cw) (wordClass cw) (BitVec.ofNat 4 n) = cw := by
  rw [← hfunc, BitVec.ofNat_toNat, BitVec.setWidth_eq, packWord_fields hrsv]

/-- An operation without ARG is decoded from no word but its own (R84). -/
theorem encode_of_noArg {cw : Word} {i j : Instr} {n : Nat} (hrsv : wordRsv cw = 0) (hfunc : (wordFunc cw).toNat = n)
    (h : noArg cw i = .ok j) (hi : encode i = packWord 0 (wordClass cw) (BitVec.ofNat 4 n)) : encode j = cw := by
  obtain ⟨harg, rfl⟩ := wordArg_of_noArg h
  rw [hi, ← harg, packWord_of_func hrsv hfunc]

theorem encode_of_decodeCmd {cw : Word} {i : Instr} (h : decodeCmd cw = .ok i) : encode i = cw := by
  unfold decodeCmd at h
  split at h
  · cases h
  next hcls =>
  split at h
  · cases h
  next hrsv =>
  have hcls : wordClass cw = false := Bool.eq_false_iff.2 hcls
  have hrsv : wordRsv cw = 0 := Decidable.not_not.1 hrsv
  split at h
  case h_8 => cases h
  all_goals
    next hfunc =>
    exact encode_of_noArg hrsv hfunc h (by rw [hcls]; rfl)

theorem encode_of_decodeBus {cw : Word} {i : Instr} (h : decodeBus cw = .ok i) : encode i = cw := by
  unfold decodeBus at h
  split at h
  · cases h
  next hcls =>
  split at h
  · cases h
  next hrsv =>
  have hcls : wordClass cw = true := by simpa using hcls
  have hrsv : wordRsv cw = 0 := Decidable.not_not.1 hrsv
  split at h
  case h_12 => cases h
  case h_2 hfunc | h_11 hfunc =>
    cases h
    rw [← packWord_of_func hrsv hfunc, hcls]
    simp [encode]
  all_goals
    next hfunc =>
    exact encode_of_noArg hrsv hfunc h (by rw [hcls]; rfl)

theorem decodeCmd_encode {i : Instr} (hi : i.isHost = true) : decodeCmd (encode i) = .ok i := by
  cases i with
  | expkey | encblk | decblk | encecb | dececb | enccbc | deccbc => rfl
  | _ => cases hi

theorem decodeBus_encode {i : Instr} (hi : i.isHost = false) : decodeBus (encode i) = .ok i := by
  cases i with
  | expkey | encblk | decblk | encecb | dececb | enccbc | deccbc => cases hi
  | kexpcol c | addroundkey c => simp [decodeBus, encode]
  | _ => rfl

/-- CMD decodes exactly the encoded host commands (R87). -/
theorem decodeCmd_eq_ok_iff (cw : Word) (i : Instr) : decodeCmd cw = .ok i ↔ i.isHost = true ∧ encode i = cw :=
  ⟨fun h => ⟨Machine.isHost_of_decodeCmd cw i h, encode_of_decodeCmd h⟩, fun ⟨hi, hcw⟩ => hcw ▸ decodeCmd_encode hi⟩

/-- The unit-operation bus decodes exactly the encoded unit operations (R87). -/
theorem decodeBus_eq_ok_iff (cw : Word) (i : Instr) : decodeBus cw = .ok i ↔ i.isHost = false ∧ encode i = cw :=
  ⟨fun h => ⟨Machine.isHost_of_decodeBus cw i h, encode_of_decodeBus h⟩, fun ⟨hi, hcw⟩ => hcw ▸ decodeBus_encode hi⟩

theorem wordClass_encode (i : Instr) : wordClass (encode i) = !i.isHost := by
  cases i with
  | kexpcol c | addroundkey c => exact wordClass_packWord c true _
  | _ => rfl

/-- The port of a word's CLASS decodes exactly the encoded operations of that class. -/
theorem decodeWord_eq_ok_iff (cw : Word) (i : Instr) : decodeWord cw = .ok i ↔ encode i = cw := by
  have hclass (hcw : encode i = cw) : i.isHost = !wordClass cw := by rw [← hcw, wordClass_encode, Bool.not_not]
  unfold decodeWord
  split
  · next hcls => rw [decodeBus_eq_ok_iff, and_iff_right_of_imp fun hcw => by rw [hclass hcw, hcls]; rfl]
  · next hcls =>
    rw [decodeCmd_eq_ok_iff, and_iff_right_of_imp fun hcw => by rw [hclass hcw, Bool.eq_false_iff.2 hcls]; rfl]

/-- Settles O1: each port decodes exactly the encoded words of its class. -/
theorem encodingRoundTripsBothWays : Obligations.EncodingRoundTripsBothWays := by
  unfold Obligations.EncodingRoundTripsBothWays
  simp only [decodeCmd_eq_ok_iff, decodeBus_eq_ok_iff, decodeWord_eq_ok_iff]
  exact ⟨fun _ => trivial, fun _ _ hcw => hcw, fun _ _ => and_comm, fun _ _ => and_comm⟩

theorem decodeTableWord_of_encode {w : Nat} {i : Instr} (h : encode i = tableWord 16 w) : decodeTableWord 16 w = some i := by
  rw [decodeTableWord, (decodeWord_eq_ok_iff _ i).2 h]
  rfl

/-- Settles O2: each of the ten words is the one its operation encodes to. -/
theorem tableWordsDecode : Obligations.TableWordsDecode := by
  unfold Obligations.TableWordsDecode
  refine ⟨?_, ?_, ?_, ?_, ?_, ?_, ?_, ?_, ?_, ?_⟩ <;> exact decodeTableWord_of_encode (by decide)

end Sys2Proof
end

section
/-! One step: a reset before all else, then a word of the unit-operation bus, then the host's move; and the words and ARGs that
are refused (R28, R87, R88, R290, R291). -/

namespace Sys2Proof.Machine

/-! ### What a step does, by what is waiting -/

theorem step_of_reset {s : State} {rest : List HostMove} (hhost : s.host = .reset :: rest) :
    step s = .next { s with host := rest }.platformReset := by
  simp only [step, stepWith, hhost]

theorem step_of_bus {s : State} {cw : Word} {more : List Word} (hseq : s.seq = cw :: more)
    (hreset : ∀ rest, s.host ≠ .reset :: rest) : step s = { s with seq := more }.issueUnit exec cw := by
  cases hhost : s.host with
  | nil => simp only [step, stepWith, hhost, hseq]
  | cons m rest =>
    cases m with
    | reset => exact absurd hhost (hreset rest)
    | _ => simp only [step, stepWith, hhost, hseq]

theorem step_of_idle {s : State} (hhost : s.host = []) (hseq : s.seq = []) : step s = .next s := by
  simp only [step, stepWith, hhost, hseq]

theorem step_of_cmd {s : State} {v : Nat} {rest : List HostMove} (hhost : s.host = .writeReg .cmd v :: rest)
    (hseq : s.seq = []) (hbusy : s.busy = false) :
    step s = { s with host := rest }.issueWord exec (BitVec.ofNat 16 v) := by
  rw [step_of_hostMove hhost hseq HostMove.noConfusion, hbusy]
  rfl

theorem issueWord_of_decodeCmd {s : State} {cw : Word} {i : Instr} (h : decodeCmd cw = .ok i) :
    s.issueWord exec cw = exec i s.issue := by
  rw [State.issueWord, h]

theorem issueUnit_of_decodeBus {s : State} {cw : Word} {i : Instr} (h : decodeBus cw = .ok i) :
    s.issueUnit exec cw = exec i s := by
  rw [State.issueUnit, h]

theorem issueWord_refused {s : State} {cw : Word} (h : ∀ i, decodeCmd cw ≠ .ok i) :
    ∃ why, s.issueWord exec cw = .refused (.reservedWord cw why) := by
  unfold State.issueWord
  split
  · next i hi => exact absurd hi (h i)
  · exact ⟨_, rfl⟩

theorem issueUnit_refused {s : State} {cw : Word} (h : ∀ i, decodeBus cw ≠ .ok i) :
    ∃ why, s.issueUnit exec cw = .refused (.reservedWord cw why) := by
  unfold State.issueUnit
  split
  · next i hi => exact absurd hi (h i)
  · exact ⟨_, rfl⟩

/-- Settles O4: with BUSY = 0 the move is made, and it issues the word. -/
theorem stepRunsTheWordWrittenToCmd : Obligations.StepRunsTheWordWrittenToCmd := by
  unfold Obligations.StepRunsTheWordWrittenToCmd
  intro s v rest i hhost hseq hbusy hi
  rw [step_of_cmd hhost hseq hbusy, issueWord_of_decodeCmd hi, State.issue]

/-- Settles O5: the bus goes before the host's move. -/
theorem stepRunsTheWordOnTheUnitBus : Obligations.StepRunsTheWordOnTheUnitBus := by
  unfold Obligations.StepRunsTheWordOnTheUnitBus
  intro s cw more i hseq hreset hi
  rw [step_of_bus hseq hreset, issueUnit_of_decodeBus hi]

/-- Settles O6, by the last case of a step. -/
theorem idleStepChangesNothing : Obligations.IdleStepChangesNothing := by
  unfold Obligations.IdleStepChangesNothing
  exact fun _ => step_of_idle

/-- Settles O7: the reset transition gives the fields named their values whatever the state holds. -/
theorem resetAbandonsTheCommandInProgress : Obligations.ResetAbandonsTheCommandInProgress := by
  unfold Obligations.ResetAbandonsTheCommandInProgress
  intro s rest hhost
  refine ⟨_, step_of_reset hhost, rfl, rfl, rfl, rfl, rfl, rfl, rfl, rfl, rfl, rfl, fun b => ?_⟩
  cases b <;> rfl

/-! ### Reserved words and an ARG out of range -/

/-- The words of the host commands are 1 to 7 (R83). -/
theorem encode_toNat_of_isHost {i : Instr} (hi : i.isHost = true) : 1 ≤ (encode i).toNat ∧ (encode i).toNat ≤ 7 := by
  cases i with
  | expkey | encblk | decblk | encecb | dececb | enccbc | deccbc => decide
  | _ => cases hi

/-- Of the unit operations FUNC is at most 10, bits 7:4 are CLASS alone, and only FUNC 1 and 10 have an ARG (R82 to R85). -/
theorem encode_toNat_of_isUnit {i : Instr} (hi : i.isHost = false) :
    (encode i).toNat % 16 ≤ 10 ∧ (encode i).toNat / 16 % 16 = 8 ∧
      ((encode i).toNat % 16 = 1 ∨ (encode i).toNat % 16 = 10 ∨ (encode i).toNat / 256 = 0) := by
  cases i with
  | expkey | encblk | decblk | encecb | dececb | enccbc | deccbc => cases hi
  | kexpcol c =>
    have hword : (encode (.kexpcol c)).toNat = 256 * c.toNat + 129 := packWord_toNat c true 1
    omega
  | addroundkey k =>
    have hword : (encode (.addroundkey k)).toNat = 256 * k.toNat + 138 := packWord_toNat k true 10
    omega
  | _ => decide

theorem decodeCmd_ne_ok {cw : Word} (hcw : cw.toNat = 0 ∨ 8 ≤ cw.toNat) (i : Instr) : decodeCmd cw ≠ .ok i := by
  intro h
  obtain ⟨hi, rfl⟩ := (decodeCmd_eq_ok_iff cw i).1 h
  have := encode_toNat_of_isHost hi
  omega

theorem decodeBus_ne_ok {cw : Word} (hcw : 11 ≤ cw.toNat % 16 ∨ cw.toNat / 16 % 16 ≠ 8 ∨
    (cw.toNat % 16 ≠ 1 ∧ cw.toNat % 16 ≠ 10 ∧ cw.toNat / 256 ≠ 0)) (i : Instr) : decodeBus cw ≠ .ok i := by
  intro h
  obtain ⟨hi, rfl⟩ := (decodeBus_eq_ok_iff cw i).1 h
  have := encode_toNat_of_isUnit hi
  omega

theorem exec_kexpcol_refused {s : State} {c : BitVec 8} (hc : ¬ (s.nk.toNat ≤ c.toNat ∧ c.toNat < 4 * (s.nr.toNat + 1))) :
    exec (.kexpcol c) s = .refused (.argOutOfRange c) :=
  if_neg (mt (columnArgOk_iff _ _ _).1 hc)

theorem exec_addroundkey_refused {s : State} {k : BitVec 8} (hk : ¬ k.toNat ≤ s.nr.toNat) :
    exec (.addroundkey k) s = .refused (.argOutOfRange k) :=
  if_neg (mt (roundArgOk_iff _ _).1 hk)

/-- Settles O3: no operation encodes to a reserved word, so neither port decodes it, and the two unit operations check ARG. -/
theorem reservedWordsAreRefused : Obligations.ReservedWordsAreRefused := by
  unfold Obligations.ReservedWordsAreRefused
  refine ⟨fun s cw rest hhost hseq hbusy hcw => ?_, fun s cw more hseq hreset hcw => ?_, fun s c hc => ?_, fun s k hk => ?_⟩
  · rw [step_of_cmd hhost hseq hbusy, BitVec.ofNat_toNat, BitVec.setWidth_eq]
    exact issueWord_refused (decodeCmd_ne_ok hcw)
  · rw [step_of_bus hseq hreset]
    exact issueUnit_refused (decodeBus_ne_ok hcw)
  · exact exec_kexpcol_refused (by omega)
  · exact exec_addroundkey_refused (by omega)

end Sys2Proof.Machine
end

section
/-! The invariant: every operation, every access of the host and every reset keeps it. A host command overwrites ERR, OLEN and
BUSY, so one issued with BUSY = 1 ends as it does with BUSY = 0 (R29, R260). -/

namespace Sys2Proof.Machine

/-! ### Commands overwrite ERR, OLEN and BUSY -/

section

variable (s : State) (e : ErrKind) (n : Nat) (b : Bool)

theorem blockCommand_overwrites (f : Sched → Nat → Block → Block) :
    { s with err := e, olen := n, busy := b }.blockCommand f = s.blockCommand f := rfl

theorem bulkCommand_overwrites (cbc : Bool) (f : Sched → Nat → Block → List Block → List Block) :
    { s with err := e, olen := n, busy := b }.bulkCommand cbc f = s.bulkCommand cbc f := by
  cases cbc <;> rfl

theorem exec_overwrites_of_isBulk {i : Instr} (hi : i.isBulk = true) :
    exec i { s with err := e, olen := n, busy := b } = exec i s := by
  obtain ⟨f, hf⟩ := exec_eq_bulkCommand hi
  rw [hf, hf, bulkCommand_overwrites]

theorem exec_expkey_overwrites : exec .expkey { s with err := e, olen := n, busy := b } = exec .expkey s := rfl

end

/-- Settles O50: either end of a command writes all three fields, and nothing before it reads them. -/
theorem everyCommandOverwritesErr : Obligations.EveryCommandOverwritesErr := by
  unfold Obligations.EveryCommandOverwritesErr
  intro i s e n b hi
  cases i with
  | expkey => exact exec_expkey_overwrites s e n b
  | encblk => exact blockCommand_overwrites s e n b encBlock
  | decblk => exact blockCommand_overwrites s e n b decBlock
  | encecb | dececb | enccbc | deccbc =>
    exact exec_overwrites_of_isBulk s e n b rfl
  | _ => cases hi

theorem exec_issue {i : Instr} (hi : i.isHost = true) (s : State) : exec i s.issue = exec i s :=
  everyCommandOverwritesErr i s s.err s.olen true hi

/-! ### The reset state -/

theorem inv_reset : Inv State.reset where
  idle := rfl
  coreErr := by decide
  keySize := nofun
  capacity := nofun
  keybufWf := rfl
  dinWf := rfl
  ivbufWf := rfl
  doutWf := rfl
  keybufBelow := rfl
  dinBelow := rfl
  ivbufBelow := rfl
  doutBelow := rfl
  result := nofun
  resultFits := rfl

/-- Settles O8: the empty buffers are canonical and within capacity, and there is no result. -/
theorem resetStateIsGood : Obligations.ResetStateIsGood := by
  unfold Obligations.ResetStateIsGood
  refine ⟨inv_reset, rfl, by decide, rfl, rfl, rfl, rfl, fun b => ?_⟩
  cases b <;> rfl

theorem fits_zero (s : State) : s.fits 0 = true := (fits_iff s 0).2 fun _ _ => Nat.zero_le _

section

variable {s : State}

theorem Inv.platformReset (h : Inv s) : Inv s.platformReset :=
  have hbelow (cap : Option Nat) : memBelow [] cap = true := by cases cap <;> rfl
  { inv_reset with
    keySize := nofun
    capacity := h.capacity
    dinBelow := hbelow s.maxDlen
    doutBelow := hbelow s.maxDlen
    resultFits := fits_zero s }

/-! ### Operations -/

theorem Inv.raiseError (h : Inv s) {k : ErrKind} (hk : k ≠ .corruptPadding) : Inv (s.raiseError k) :=
  { h with
    idle := rfl
    coreErr := hk
    result := nofun
    resultFits := fits_zero s }

/-- NK and NR after LDKEY are the pair of the key's length (R8). -/
theorem keySizeOk_loadKey (hk : keyLengthOk s.klen = true) : keySizeOk s.loadKey.nk s.loadKey.nr = true := by
  rw [loadKey_nk, loadKey_nr]
  obtain h | h | h := (keyLengthOk_iff s.klen).1 hk <;> rw [h] <;> rfl

theorem Inv.loadKey (h : Inv s) (hk : keyLengthOk s.klen = true) : Inv s.loadKey :=
  { h with keySize := fun _ => keySizeOk_loadKey hk }

theorem Inv.deriveColumn (h : Inv s) (c : Nat) : Inv (s.deriveColumn c) := { h with }

theorem Inv.complete_expandKey (h : Inv s) (hk : keyLengthOk s.klen = true) :
    Inv ((s.expandKey.setSv true).complete 0) :=
  { h with
    idle := rfl
    coreErr := ErrKind.noConfusion
    keySize := fun _ => keySizeOk_loadKey hk
    result := nofun
    resultFits := fits_zero s }

/-- Storing a result that fits DOUT keeps what the invariant says of DOUT, and every byte of the result is then written. -/
theorem Inv.complete_storeOut (h : Inv s) {bytes : List Byte} (hfits : s.fits bytes.length = true) :
    Inv ((s.storeOut 0 bytes).complete bytes.length) :=
  { h with
    idle := rfl
    coreErr := ErrKind.noConfusion
    doutWf := memWf_memWriteBytes bytes s.dout 0 h.doutWf
    doutBelow := memBelow_memWriteBytes bytes s.dout s.maxDlen 0 h.doutBelow fun n hn => by
      rw [Nat.zero_add]
      exact (fits_iff s _).1 hfits n hn
    result := fun off hoff => by
      have hoff : off < bytes.length := hoff
      rw [complete_dout, storeOut_dout, memRead_memWriteBytes, if_pos ⟨off.zero_le, by omega⟩, Nat.sub_zero,
        List.getElem?_eq_getElem hoff]
      rfl
    resultFits := hfits }

theorem Inv.blockResult (h : Inv s) {bytes : List Byte} (hlen : bytes.length = 16) :
    Inv (((s.storeOut 0 bytes).dropMat).complete 16) := by
  have hfits : s.fits bytes.length = true := (fits_iff s _).2 fun n hn => hlen ▸ (h.capacity n hn).1
  exact hlen ▸ { h.complete_storeOut hfits with }

theorem Inv.bulkResult (h : Inv s) {bytes : List Byte} (hlen : bytes.length = s.dlen) (hfits : s.fits s.dlen = true)
    (cbc : Bool) : Inv ((s.expandKey.storeOut 0 bytes).bulkEpilogue cbc) := by
  rw [bulkResult_eq, ← hlen]
  exact { h.complete_storeOut (hlen ▸ hfits) with keySize := nofun }

theorem Inv.exec (h : Inv s) {i : Instr} {t : State} (ht : exec i s = .next t) : Inv t := by
  obtain ⟨k, -, hk, -, rfl⟩ | ⟨-, hk, rfl⟩ | ⟨-, -, -, bytes, hlen, rfl⟩ | ⟨-, hfits, -, bytes, hlen, rfl⟩ |
    ⟨-, -, -, m, o, rfl, -⟩ | ⟨-, hk, rfl⟩ | ⟨c, -, -, rfl⟩ := exec_cases i s t ht
  · exact h.raiseError hk
  · exact h.complete_expandKey hk
  · exact h.blockResult hlen
  · exact h.bulkResult hlen hfits _
  · exact { h with }
  · exact h.loadKey hk
  · exact h.deriveColumn _

/-! ### Accesses of the host -/

theorem readReg_eq_answer (s : State) (r : CReg) : ∃ v n, s.readReg r = s.answer v n := by
  cases r with
  | schedinfo =>
    simp only [State.readReg]
    split
    · exact ⟨_, _, rfl⟩
    · exact ⟨_, _, rfl⟩
  | _ => exact ⟨_, _, rfl⟩

theorem readByte_eq_answer (s : State) (x : Space) (off : Nat) : ∃ v n, s.readByte x off = s.answer v n := by
  unfold State.readByte
  split
  · split
    · exact ⟨_, _, rfl⟩
    · exact ⟨_, _, rfl⟩
  · exact ⟨_, _, rfl⟩
  · split
    · exact ⟨_, _, rfl⟩
    · exact ⟨_, _, rfl⟩

theorem hasOffset_iff (s : State) (x : Space) (off : Nat) :
    s.hasOffset x off = true ↔ ∀ n, s.capacity x = some n → off < n := by
  unfold State.hasOffset
  cases s.capacity x <;> simp

theorem Inv.writeReg (h : Inv s) (r : CReg) (v : Nat) : Inv (s.writeReg r v) := by
  cases r with
  | klen | dlen | ivlen => exact { h with }
  | _ => exact h

theorem Inv.writeByte (h : Inv s) {x : Space} {off : Nat} (hoff : s.hasOffset x off = true) (v : Byte) :
    Inv (s.writeByte x off v) := by
  have hbelow := (hasOffset_iff s x off).1 hoff
  match x with
  | .buffer .keybuf =>
    exact { h with
      keybufWf := memWf_memWrite _ _ _ h.keybufWf
      keybufBelow := memBelow_memWrite _ _ _ _ h.keybufBelow hbelow }
  | .buffer .din =>
    exact { h with
      dinWf := memWf_memWrite _ _ _ h.dinWf
      dinBelow := memBelow_memWrite _ _ _ _ h.dinBelow hbelow }
  | .buffer .ivbuf =>
    exact { h with
      ivbufWf := memWf_memWrite _ _ _ h.ivbufWf
      ivbufBelow := memBelow_memWrite _ _ _ _ h.ivbufBelow hbelow }
  | .buffer .dout => exact h
  | .sched => exact h

theorem Inv.answer (h : Inv s) (v n : Nat) : Inv (s.answer v n) := { h with }

theorem Inv.access (h : Inv s) {m : HostMove} (hm : s.placeExists m = true) : Inv (s.access m) := by
  cases m with
  | reset => exact h
  | writeReg r v => exact h.writeReg r v
  | readReg r =>
    obtain ⟨v, n, hr⟩ := readReg_eq_answer s r
    rw [State.access, hr]
    exact h.answer v n
  | writeByte x off v => exact h.writeByte hm v
  | readByte x off =>
    obtain ⟨v, n, hr⟩ := readByte_eq_answer s x off
    rw [State.access, hr]
    exact h.answer v n

theorem Inv.withHost (h : Inv s) (rest : List HostMove) : Inv { s with host := rest } := { h with }

theorem Inv.withSeq (h : Inv s) (more : List Word) : Inv { s with seq := more } := { h with }

end

/-- Settles O9: whichever of the five things a step does, it keeps the invariant. -/
theorem stepKeepsTheInvariant : Obligations.StepKeepsTheInvariant := by
  unfold Obligations.StepKeepsTheInvariant
  intro s t h hstep
  obtain ⟨rest, -, rfl⟩ | ⟨cw, more, i, -, -, ht⟩ | ⟨v, rest, i, -, -, -, hi, ht⟩ | ⟨m, rest, -, -, -, -, hplace, rfl⟩ |
    ⟨-, -, rfl⟩ := step_cases s t hstep
  · exact (h.withHost rest).platformReset
  · exact (h.withSeq more).exec ht
  · rw [exec_issue (isHost_of_decodeCmd _ i hi)] at ht
    exact (h.withHost rest).exec ht
  · exact (h.withHost rest).access hplace
  · exact h

end Sys2Proof.Machine
end

section
/-! The host's accesses: what a write or a read of a register or of a byte does, which writes are ignored, and which offsets
fault (R27 to R32, R50). -/

namespace Sys2Proof.Machine

/-! ### The host's move with the engine idle, and a move that BUSY does not forbid -/

section

variable {s : State} {rest : List HostMove}

theorem step_of_needsNoIdle {m : HostMove} (hhost : s.host = m :: rest) (hseq : s.seq = []) (hreset : m ≠ .reset)
    (hm : m.needsIdle = false) : step s = { s with host := rest }.hostMove exec m := by
  rw [step_of_hostMove hhost hseq hreset, hm, Bool.and_false]
  rfl

theorem step_of_not_busy {m : HostMove} (hhost : s.host = m :: rest) (hseq : s.seq = []) (hreset : m ≠ .reset)
    (hbusy : s.busy = false) : step s = { s with host := rest }.hostMove exec m := by
  rw [step_of_hostMove hhost hseq hreset, hbusy]
  rfl

theorem step_readReg {r : CReg} (hhost : s.host = .readReg r :: rest) (hseq : s.seq = []) (hbusy : s.busy = false) :
    step s = .next ({ s with host := rest }.readReg r) :=
  step_of_not_busy hhost hseq HostMove.noConfusion hbusy

theorem hostMove_writeReg (s : State) {r : CReg} (hr : r ≠ .cmd) (v : Nat) :
    s.hostMove exec (.writeReg r v) = .next (s.writeReg r v) := by
  cases r with
  | cmd => exact absurd rfl hr
  | _ => rfl

theorem step_writeReg {r : CReg} {v : Nat} (hhost : s.host = .writeReg r v :: rest) (hseq : s.seq = [])
    (hbusy : s.busy = false) (hr : r ≠ .cmd) : step s = .next ({ s with host := rest }.writeReg r v) := by
  rw [step_of_not_busy hhost hseq HostMove.noConfusion hbusy, hostMove_writeReg _ hr]

theorem step_readByte {x : Space} {off : Nat} (hhost : s.host = .readByte x off :: rest) (hseq : s.seq = [])
    (hbusy : s.busy = false) (hoff : s.hasOffset x off = true) :
    step s = .next ({ s with host := rest }.readByte x off) := by
  rw [step_of_not_busy hhost hseq HostMove.noConfusion hbusy]
  exact if_pos hoff

theorem step_writeByte {x : Space} {off : Nat} {v : Byte} (hhost : s.host = .writeByte x off v :: rest) (hseq : s.seq = [])
    (hbusy : s.busy = false) (hoff : s.hasOffset x off = true) :
    step s = .next ({ s with host := rest }.writeByte x off v) := by
  rw [step_of_not_busy hhost hseq HostMove.noConfusion hbusy]
  exact if_pos hoff

end

/-! ### STATUS, OLEN, the result, SCHEDINFO -/

/-- BUSY in bit 0, SV in bit 1, ERR from bit 2 on (R29). -/
theorem status_toNat (s : State) : s.status.toNat = s.busy.toNat + 2 * s.sv.toNat + 4 * s.err.code.toNat := by
  have hhigh : (0 : BitVec 3).toNat = 0 := rfl
  have hbusy : s.busy.toNat ≤ 1 := Bool.toNat_le _
  have hsv : s.sv.toNat ≤ 1 := Bool.toNat_le _
  have herr : s.err.code.toNat < 2 ^ 3 := s.err.code.isLt
  simp only [State.status, BitVec.toNat_append, BitVec.toNat_ofBool, hhigh]
  rw [← Nat.shiftLeft_add_eq_or_of_lt (by omega), ← Nat.shiftLeft_add_eq_or_of_lt (by omega),
    ← Nat.shiftLeft_add_eq_or_of_lt (by omega)]
  omega

theorem status_toNat_lt (s : State) : s.status.toNat < 32 := by
  have hbusy : s.busy.toNat ≤ 1 := Bool.toNat_le _
  have hsv : s.sv.toNat ≤ 1 := Bool.toNat_le _
  have herr : s.err.code.toNat < 2 ^ 3 := s.err.code.isLt
  rw [status_toNat]
  omega

theorem hasOffset_dout_of_result {s : State} {off : Nat} (hfits : s.fits s.olen = true) (hoff : off < s.olen) :
    s.hasOffset (.buffer .dout) off = true :=
  (hasOffset_iff s _ off).2 fun n hn => Nat.lt_of_lt_of_le hoff ((fits_iff s _).1 hfits n hn)

theorem readByte_dout_of_result {s : State} {off : Nat} (hoff : off < s.olen) :
    s.readByte (.buffer .dout) off = s.answer (s.loadByte .dout off).toNat 0 :=
  if_pos hoff

/-- Settles O53: the word of STATUS as a number, and the three reads, none of which draws a free byte. -/
theorem statusWordFields : Obligations.StatusWordFields := by
  unfold Obligations.StatusWordFields
  refine ⟨fun s rest hseq hhost => ?_, fun s rest hseq hbusy hhost => step_readReg hhost hseq hbusy,
    fun s off rest hseq hbusy hfits hoff hhost => ?_, fun s => ⟨status_toNat s, status_toNat_lt s⟩,
    rfl, rfl, rfl, rfl, rfl, rfl⟩
  · rw [step_of_needsNoIdle hhost hseq HostMove.noConfusion rfl, ← status_toNat]
    rfl
  · rw [step_readByte hhost hseq hbusy (hasOffset_dout_of_result hfits hoff),
      readByte_dout_of_result (s := { s with host := rest }) hoff]
    rfl

theorem readReg_schedinfo_of_sv {s : State} (hsv : s.sv = true) :
    s.readReg .schedinfo = s.answer s.schedInfo.toNat 0 :=
  if_pos hsv

/-- NR above NK, four bits each (R32). -/
theorem schedInfo_toNat_of_keySizeOk {s : State} (h : keySizeOk s.nk s.nr = true) :
    (s.nk = 4 ∧ s.schedInfo.toNat = 0xA4) ∨ (s.nk = 6 ∧ s.schedInfo.toNat = 0xC6) ∨
      (s.nk = 8 ∧ s.schedInfo.toNat = 0xE8) := by
  obtain ⟨hnk, hnr⟩ | ⟨hnk, hnr⟩ | ⟨hnk, hnr⟩ := (keySizeOk_iff s.nk s.nr).1 h <;> rw [State.schedInfo, hnk, hnr] <;> decide

/-- Settles O54: the invariant gives NK and NR one of the three pairs. -/
theorem schedInfoNamesTheKeySize : Obligations.SchedInfoNamesTheKeySize := by
  unfold Obligations.SchedInfoNamesTheKeySize
  intro s rest hinv hsv hseq hhost
  refine ⟨_, step_readReg hhost hseq hinv.idle, ?_⟩
  rw [readReg_schedinfo_of_sv (s := { s with host := rest }) hsv]
  exact ⟨rfl, schedInfo_toNat_of_keySizeOk (hinv.keySize hsv)⟩

/-! ### The length registers -/

/-- A write to a register other than CMD and a read of it are two steps (R27). -/
theorem step_writeReg_readReg {s : State} {r : CReg} {v : Nat} {rest : List HostMove}
    (hhost : s.host = .writeReg r v :: .readReg r :: rest) (hseq : s.seq = []) (hbusy : s.busy = false) (hr : r ≠ .cmd) :
    ∃ t, step s = .next t ∧ step t = .next (({ s with host := rest }.writeReg r v).readReg r) := by
  refine ⟨_, step_writeReg hhost hseq hbusy hr, ?_⟩
  cases r with
  | cmd => exact absurd rfl hr
  | _ => exact step_readReg rfl hseq hbusy

/-- Settles O55: the register takes the value, and the read draws no free byte. -/
theorem lengthRegistersTakeAnyValue : Obligations.LengthRegistersTakeAnyValue := by
  unfold Obligations.LengthRegistersTakeAnyValue
  refine fun s v rest hseq hbusy => ⟨fun hhost => ?_, fun hhost => ?_, fun hhost => ?_⟩
  all_goals
    obtain ⟨t, ht, hu⟩ := step_writeReg_readReg hhost hseq hbusy CReg.noConfusion
    exact ⟨t, _, ht, hu, rfl, rfl⟩

/-! ### The bytes of the buffers -/

theorem cells_writeByte (s : State) {b : Buffer} (hb : b ≠ .dout) (off : Nat) (v : Byte) (c : Buffer) :
    (s.writeByte (.buffer b) off v).cells c = if c = b then memWrite (s.cells c) off v else s.cells c := by
  cases b with
  | dout => exact absurd rfl hb
  | keybuf | din | ivbuf => cases c <;> rfl

theorem epoch_writeByte (s : State) (x : Space) (off : Nat) (v : Byte) : (s.writeByte x off v).epoch = s.epoch := by
  unfold State.writeByte
  split <;> rfl

theorem loadByte_writeByte_same (s : State) {b : Buffer} (hb : b ≠ .dout) (off : Nat) (v : Byte) :
    (s.writeByte (.buffer b) off v).loadByte b off = v := by
  rw [State.loadByte, cells_writeByte s hb, if_pos rfl, memRead_memWrite_same, Option.getD_some]

theorem loadByte_writeByte_other (s : State) {b : Buffer} (hb : b ≠ .dout) (off : Nat) (v : Byte) {c : Buffer} {p : Nat}
    (h : c = b → p ≠ off) : (s.writeByte (.buffer b) off v).loadByte c p = s.loadByte c p := by
  rw [State.loadByte, State.loadByte, cells_writeByte s hb, epoch_writeByte]
  split
  · next hc => rw [memRead_memWrite_other _ _ _ _ (h hc)]
  · rfl

theorem readByte_of_ne_dout (s : State) {b : Buffer} (hb : b ≠ .dout) (off : Nat) :
    s.readByte (.buffer b) off = s.answer (s.loadByte b off).toNat 0 := by
  cases b with
  | dout => exact absurd rfl hb
  | _ => rfl

/-- A write of a byte of an input buffer and a read of it are two steps (R50). -/
theorem step_writeByte_readByte {s : State} {b : Buffer} {off : Nat} {v : Byte} {rest : List HostMove} (hb : b ≠ .dout)
    (hhost : s.host = .writeByte (.buffer b) off v :: .readByte (.buffer b) off :: rest) (hseq : s.seq = [])
    (hbusy : s.busy = false) (hoff : s.hasOffset (.buffer b) off = true) :
    ∃ t, step s = .next t ∧
      step t = .next (({ s with host := rest }.writeByte (.buffer b) off v).readByte (.buffer b) off) := by
  refine ⟨_, step_writeByte hhost hseq hbusy hoff, ?_⟩
  cases b with
  | dout => exact absurd rfl hb
  | _ => exact step_readByte rfl hseq hbusy hoff

/-- Settles O56: the byte reads back as written, and the write changes no other. -/
theorem inputBuffersKeepTheByteWritten : Obligations.InputBuffersKeepTheByteWritten := by
  unfold Obligations.InputBuffersKeepTheByteWritten
  intro s b off v rest hb hseq hbusy hoff hhost
  obtain ⟨t, ht, hu⟩ := step_writeByte_readByte hb hhost hseq hbusy hoff
  refine ⟨t, _, ht, hu, ?_⟩
  rw [readByte_of_ne_dout _ hb, loadByte_writeByte_same _ hb]
  refine ⟨rfl, fun c p hcp => ?_, ?_⟩
  · calc _ = ({ s with host := rest }.writeByte (.buffer b) off v).loadByte c p := by cases c <;> rfl
      _ = { s with host := rest }.loadByte c p := loadByte_writeByte_other _ hb off v hcp
      _ = s.loadByte c p := by cases c <;> rfl
  · cases b with
    | dout => exact absurd rfl hb
    | _ => rfl

/-- Settles O57: none of these moves needs the idle engine, and none of these writes has an effect. -/
theorem writesToReadOnlyPlacesAreIgnored : Obligations.WritesToReadOnlyPlacesAreIgnored := by
  unfold Obligations.WritesToReadOnlyPlacesAreIgnored
  rintro s m rest hhost hseq (⟨v, rfl | rfl | rfl⟩ | ⟨off, v, rfl, hoff⟩ | ⟨off, v, rfl, hoff⟩)
  · exact step_of_needsNoIdle hhost hseq HostMove.noConfusion rfl
  · exact step_of_needsNoIdle hhost hseq HostMove.noConfusion rfl
  · exact step_of_needsNoIdle hhost hseq HostMove.noConfusion rfl
  · exact (step_of_needsNoIdle hhost hseq HostMove.noConfusion rfl).trans (if_pos hoff)
  · exact (step_of_needsNoIdle hhost hseq HostMove.noConfusion rfl).trans (if_pos (decide_eq_true hoff))

/-! ### Offsets a space does not have -/

theorem hasOffset_eq_false {s : State} {x : Space} {n off : Nat} (hcap : s.capacity x = some n) (hoff : n ≤ off) :
    ¬ s.hasOffset x off = true := fun h =>
  absurd ((hasOffset_iff s x off).1 h n hcap) (Nat.not_lt.2 hoff)

theorem step_fault_of_not_hasOffset {s : State} {x : Space} {off : Nat} {v : Byte} {rest : List HostMove} (hseq : s.seq = [])
    (hbusy : s.busy = false) (hoff : ¬ s.hasOffset x off = true)
    (hhost : s.host = .writeByte x off v :: rest ∨ s.host = .readByte x off :: rest) :
    step s = .fault (.noSuchOffset x off) := by
  obtain hhost | hhost := hhost
  · exact (step_of_not_busy hhost hseq HostMove.noConfusion hbusy).trans (if_neg hoff)
  · exact (step_of_not_busy hhost hseq HostMove.noConfusion hbusy).trans (if_neg hoff)

/-- Settles O59: each of the offsets is at or above its space's capacity. -/
theorem offsetsBeyondCapacityFault : Obligations.OffsetsBeyondCapacityFault := by
  unfold Obligations.OffsetsBeyondCapacityFault
  intro s x off v rest hseq hbusy hplace hhost
  refine step_fault_of_not_hasOffset hseq hbusy ?_ hhost
  obtain ⟨rfl, hoff⟩ | ⟨rfl, hoff⟩ | ⟨rfl, hoff⟩ | ⟨rfl | rfl, n, hcap, hoff⟩ := hplace
  · exact hasOffset_eq_false (n := 32) rfl hoff
  · exact hasOffset_eq_false (n := 16) rfl hoff
  · exact hasOffset_eq_false (n := 240) rfl hoff
  · exact hasOffset_eq_false hcap hoff
  · exact hasOffset_eq_false hcap hoff

end Sys2Proof.Machine
end

section
/-! GF(2^8): a map of bytes that is additive and commutes with `xtime` is multiplication by its value at 1, and hence `gmul` is
commutative and associative; inverses, and from them the S-box (R112 to R115, R163 to R165). -/

namespace Sys2Proof.Machine

/-! ### Linear maps -/

/-- A map of bytes that respects XOR and `xtime`. -/
structure IsLinear (f : Byte → Byte) : Prop where
  xor : ∀ a b, f (a ^^^ b) = f a ^^^ f b
  xtime : ∀ a, f (Machine.xtime a) = Machine.xtime (f a)

section

variable {f : Byte → Byte} (hf : IsLinear f)

include hf

theorem IsLinear.zero : f 0x00 = 0x00 := by
  have h := hf.xor 0x00 0x00
  rwa [BitVec.xor_self, BitVec.xor_self] at h

theorem IsLinear.repeat_xtime (i : Nat) (a : Byte) : f (Nat.repeat Machine.xtime i a) = Nat.repeat Machine.xtime i (f a) := by
  induction i with
  | zero => rfl
  | succ i ih => rw [Nat.repeat, hf.xtime, ih, Nat.repeat]

theorem IsLinear.gmulAddBit (a m p : Byte) (i : Nat) : f (gmulAddBit a m p i) = gmulAddBit (f a) m (f p) i := by
  unfold Machine.gmulAddBit
  split
  · rw [hf.xor, hf.repeat_xtime]
  · rfl

theorem IsLinear.foldl_gmulAddBit (a m p : Byte) (l : List Nat) :
    f (l.foldl (Machine.gmulAddBit a m) p) = l.foldl (Machine.gmulAddBit (f a) m) (f p) := by
  induction l generalizing p with
  | nil => rfl
  | cons i l ih => rw [List.foldl_cons, ih, hf.gmulAddBit, List.foldl_cons]

theorem IsLinear.map_gmul (a m : Byte) : f (gmul a m) = gmul (f a) m := by
  rw [gmul_eq_foldl, hf.foldl_gmulAddBit, hf.zero, gmul_eq_foldl]

end

/-- The multiples of 1 are the bytes themselves: bit `i` adds `xtime^i(1) = 1 << i`. -/
theorem gmul_one_left (m : Byte) : gmul 0x01 m = m := by
  decide +revert

theorem IsLinear.eq_gmul {f : Byte → Byte} (hf : IsLinear f) (m : Byte) : f m = gmul (f 0x01) m := by
  rw [← hf.map_gmul, gmul_one_left]

/-! ### The field laws -/

theorem isLinear_xtime : IsLinear xtime := ⟨xtime_xor, fun _ => rfl⟩

theorem gmulAddBit_xor (a b m p q : Byte) (i : Nat) :
    gmulAddBit (a ^^^ b) m (p ^^^ q) i = gmulAddBit a m p i ^^^ gmulAddBit b m q i := by
  have hrep (i : Nat) : Nat.repeat xtime i (a ^^^ b) = Nat.repeat xtime i a ^^^ Nat.repeat xtime i b := by
    induction i with
    | zero => rfl
    | succ i ih => rw [Nat.repeat, ih, xtime_xor, Nat.repeat, Nat.repeat]
  unfold gmulAddBit
  split
  · rw [hrep]
    ac_rfl
  · rfl

theorem foldl_gmulAddBit_xor (a b m p q : Byte) (l : List Nat) :
    l.foldl (gmulAddBit (a ^^^ b) m) (p ^^^ q) = l.foldl (gmulAddBit a m) p ^^^ l.foldl (gmulAddBit b m) q := by
  induction l generalizing p q with
  | nil => rfl
  | cons i l ih => simp only [List.foldl_cons, gmulAddBit_xor, ih]

theorem gmul_xor (a b m : Byte) : gmul (a ^^^ b) m = gmul a m ^^^ gmul b m := by
  simp only [gmul_eq_foldl]
  exact foldl_gmulAddBit_xor a b m 0x00 0x00 _

theorem isLinear_gmul (m : Byte) : IsLinear (gmul · m) :=
  ⟨fun a b => gmul_xor a b m, fun a => (isLinear_xtime.map_gmul a m).symm⟩

theorem gmul_comm (a m : Byte) : gmul a m = gmul m a := by
  have h := (isLinear_gmul m).eq_gmul a
  rwa [gmul_one_left] at h

theorem isLinear_gmul_left (a : Byte) : IsLinear (gmul a) := by
  have h : gmul a = (gmul · a) := funext (gmul_comm a)
  exact h ▸ isLinear_gmul a

theorem gmul_assoc (a m n : Byte) : gmul (gmul a m) n = gmul a (gmul m n) :=
  ((isLinear_gmul_left a).map_gmul m n).symm

/-! ### Inverses and the S-box -/

/-- The inverse of a byte, read from the forward S-box by undoing its affine map; 0 for 0. -/
def fieldInverse (a : Byte) : Byte :=
  let b := sbox a ^^^ 0x63
  b.rotateLeft 1 ^^^ b.rotateLeft 3 ^^^ b.rotateLeft 6

theorem gmul_fieldInverse {a : Byte} (ha : a ≠ 0x00) : gmul a (fieldInverse a) = 0x01 := by
  decide +revert

theorem eq_fieldInverse {a v : Byte} (h : gmul a v = 0x01) (ha : a ≠ 0x00) : v = fieldInverse a :=
  calc v = gmul (gmul (fieldInverse a) a) v := by rw [gmul_comm (fieldInverse a), gmul_fieldInverse ha, gmul_one_left]
    _ = fieldInverse a := by rw [gmul_assoc, h, gmul_one]

/-- Settles O11: `gmul · m` is additive and commutes with `xtime`, and so is `gmul a`; the S-box gives each byte's inverse. -/
theorem gmulIsFieldMultiplication : Obligations.GmulIsFieldMultiplication := by
  unfold Obligations.GmulIsFieldMultiplication
  exact ⟨gmul_comm, gmul_xor, gmul_assoc, fun a ha => ⟨_, gmul_fieldInverse ha, fun c hc => eq_fieldInverse hc ha⟩⟩

/-- Settles O12: each set bit `i` of the multiplier adds `xtime^i(a)`. -/
theorem matrixMultipliersExpanded : Obligations.MatrixMultipliersExpanded := by
  unfold Obligations.MatrixMultipliersExpanded
  exact fun a => ⟨gmul_one a, gmul_two a, gmul_three a, gmul_nine a, gmul_eleven a, gmul_thirteen a, gmul_fourteen a⟩

/-- The affine map of the S-box. -/
def sboxAffine (v : Byte) : Byte :=
  v ^^^ v.rotateLeft 1 ^^^ v.rotateLeft 2 ^^^ v.rotateLeft 3 ^^^ v.rotateLeft 4 ^^^ 0x63

theorem sbox_eq_sboxAffine (a : Byte) : sbox a = sboxAffine (fieldInverse a) := by
  decide +revert

theorem sbox_invSbox (a : Byte) : sbox (invSbox a) = a := by
  decide +revert

theorem sbox_ne (a : Byte) : sbox a ≠ a ∧ sbox a ≠ ~~~a := by
  decide +revert

theorem gmul_zero_left (m : Byte) : gmul 0x00 m = 0x00 := (isLinear_gmul m).zero

/-- Settles O13: the printed table is the affine map of the inverse at every byte, and a byte has one inverse only. -/
theorem sboxesAreInversePermutations : Obligations.SboxesAreInversePermutations := by
  unfold Obligations.SboxesAreInversePermutations
  refine ⟨fun a => ⟨invSbox_sbox a, sbox_invSbox a⟩, sbox_ne, fun a v hv => ?_⟩
  have hinv : v = fieldInverse a := by
    obtain ⟨rfl, rfl⟩ | hone := hv
    · decide
    · refine eq_fieldInverse hone ?_
      rintro rfl
      rw [gmul_zero_left] at hone
      exact absurd hone (by decide)
  rw [hinv]
  exact sbox_eq_sboxAffine a

/-! ### The column functions of the key expander -/

theorem rcon_toNat_of_lt {n : Nat} (hn : n < 8) : (rcon n).toNat = 1 <<< n := by
  decide +revert

/-- Settles O14: `sub_word` acts on each row by itself and `rot_word` only moves the rows. -/
theorem columnFunctionsOfTheKeyExpander : Obligations.ColumnFunctionsOfTheKeyExpander := by
  unfold Obligations.ColumnFunctionsOfTheKeyExpander
  exact ⟨fun _ => rfl, fun _ => rfl, fun _ => rfl, fun _ => rcon_toNat_of_lt, rfl, rfl⟩

end Sys2Proof.Machine
end

section
/-! The unit operations in pairs: each transform undoes its inverse too, the rotations commute with the substitutions, and what
this says of the operations issued one after the other (R166, R169, R175, R177); LDKEY and KEXPCOL outside the key sizes. -/

namespace Sys2Proof.Machine

/-! ### The forward transforms undo the inverse ones -/

theorem subBytes_invSubBytes (m : Mat) : subBytes (invSubBytes m) = m :=
  Mat.ext_get fun r c => by rw [subBytes_get, invSubBytes_get, sbox_invSbox]

theorem column_add_sub_cancel (r c : Fin 4) : c + r - r = c := by
  decide +revert

theorem shiftRows_invShiftRows (m : Mat) : shiftRows (invShiftRows m) = m :=
  Mat.ext_get fun r c => by rw [shiftRows_get, invShiftRows_get, column_add_sub_cancel]

/-- The two rows' polynomials commute, so this product has the same coefficients as `invMixByte_mixByte`'s (R175). -/
theorem mixByte_invMixByte (a b c d : Byte) :
    mixByte (invMixByte a b c d) (invMixByte b c d a) (invMixByte c d a b) (invMixByte d a b c) = a := by
  simp only [invMixByte, mixByte, gmul_one, gmul_two, gmul_three, gmul_nine, gmul_eleven, gmul_thirteen, gmul_fourteen,
    xtime_xor]
  ac_nf
  simp only [BitVec.xor_self, BitVec.xor_zero]

theorem mixColumns_invMixColumns (m : Mat) : mixColumns (invMixColumns m) = m :=
  Mat.ext_get fun i c => by
    simp only [invMixColumns_get, mixColumns_get, row_add_assoc, Fin.reduceAdd, Fin.add_zero, mixByte_invMixByte]

/-! ### Two transforms of S one after the other -/

theorem onMat_onMat (s : State) (f g : Mat → Mat) : (s.onMat f).onMat g = s.onMat (g ∘ f) := rfl

theorem onMat_onMat_of_undo {f g : Mat → Mat} (h : ∀ m, g (f m) = m) (s : State) : (s.onMat f).onMat g = s := by
  rw [onMat_onMat, State.onMat, Function.comp, h]

/-- Settles O21: each product of the matrices is a finite table, and the operations undo each other column by column. -/
theorem mixMatricesAreInverse : Obligations.MixMatricesAreInverse := by
  unfold Obligations.MixMatricesAreInverse
  refine ⟨by decide, by decide, fun s => ⟨_, exec_mixcolumns s, ?_⟩, fun s => ⟨_, exec_invmixcolumns s, ?_⟩⟩
  · rw [exec_invmixcolumns, onMat_onMat_of_undo invMixColumns_mixColumns]
  · rw [exec_mixcolumns, onMat_onMat_of_undo mixColumns_invMixColumns]

/-! ### Rotations and substitutions -/

theorem shiftRows_comp_subBytes : shiftRows ∘ subBytes = subBytes ∘ shiftRows :=
  funext fun m => Mat.ext_get fun r c => by simp only [Function.comp, shiftRows_get, subBytes_get]

theorem invShiftRows_comp_invSubBytes : invShiftRows ∘ invSubBytes = invSubBytes ∘ invShiftRows :=
  funext fun m => Mat.ext_get fun r c => by simp only [Function.comp, invShiftRows_get, invSubBytes_get]

theorem column_add_two (c : Fin 4) : c + 2 = c - 2 := by
  decide +revert

/-- The matrix whose byte at row `r`, column `c` is `c`: a rotation of a row shows in its first byte. -/
def columnNumbers : Mat := Mat.ofFn fun _ c => BitVec.ofNat 8 c.val

theorem rotations_differ {r : Fin 4} (hr : r = 1 ∨ r = 3) :
    (shiftRows columnNumbers).get r 0 ≠ (invShiftRows columnNumbers).get r 0 := by
  obtain rfl | rfl := hr <;> decide

/-- Settles O22, from the transforms' laws; on rows 1 and 3 the two rotations of `columnNumbers` differ in the first byte. -/
theorem rotationsAndSubstitutionsUndoAndCommute : Obligations.RotationsAndSubstitutionsUndoAndCommute := by
  unfold Obligations.RotationsAndSubstitutionsUndoAndCommute
  refine ⟨fun s => ⟨_, exec_shiftrows s, ?_⟩, fun s => ⟨_, exec_invshiftrows s, ?_⟩, fun s => ⟨_, exec_subbytes s, ?_⟩,
    fun s => ⟨_, exec_invsubbytes s, ?_⟩, fun s t u ht hu c => ?_, fun r hr => ?_, fun s t u ht hu => ?_,
    fun s t u ht hu => ?_⟩
  · rw [exec_invshiftrows, onMat_onMat_of_undo invShiftRows_shiftRows]
  · rw [exec_shiftrows, onMat_onMat_of_undo shiftRows_invShiftRows]
  · rw [exec_invsubbytes, onMat_onMat_of_undo invSubBytes_subBytes]
  · rw [exec_subbytes, onMat_onMat_of_undo subBytes_invSubBytes]
  · cases ht
    cases hu
    rw [onMat_mat, onMat_mat, shiftRows_get, invShiftRows_get, column_add_two]
  · exact ⟨{ State.reset with mat := columnNumbers }, _, _, exec_shiftrows _, exec_invshiftrows _, 0, rotations_differ hr⟩
  · cases ht
    cases hu
    rw [exec_shiftrows, exec_subbytes, onMat_onMat, onMat_onMat, shiftRows_comp_subBytes]
  · cases ht
    cases hu
    rw [exec_invshiftrows, exec_invsubbytes, onMat_onMat, onMat_onMat, invShiftRows_comp_invSubBytes]

/-- Settles O24: the second ADDROUNDKEY reads the same NR and the same round key. -/
theorem addRoundKeyTwiceChangesNothing : Obligations.AddRoundKeyTwiceChangesNothing := by
  unfold Obligations.AddRoundKeyTwiceChangesNothing
  intro s k hk
  refine ⟨_, exec_addroundkey_of_le hk, ?_⟩
  rw [exec_addroundkey_of_le (s := s.onMat _) hk, onMat_w, onMat_onMat_of_undo (addRoundKey_addRoundKey s.w k.toNat)]

/-! ### LDKEY and KEXPCOL outside the key sizes -/

theorem exec_ldkey_of_keyLength {s : State} (hk : s.klen = 16 ∨ s.klen = 24 ∨ s.klen = 32) :
    exec .ldkey s = .next s.loadKey :=
  if_pos ((keyLengthOk_iff _).2 hk)

theorem exec_ldkey_refused {s : State} (hk : ¬ (s.klen = 16 ∨ s.klen = 24 ∨ s.klen = 32)) :
    exec .ldkey s = .refused .keyLengthUnchecked :=
  if_neg (mt (keyLengthOk_iff _).1 hk)

theorem exec_kexpcol_of_columnArg {s : State} {c : BitVec 8} (hnk : s.nk.toNat ≤ c.toNat)
    (hc : c.toNat < 4 * (s.nr.toNat + 1)) : exec (.kexpcol c) s = .next (s.deriveColumn c.toNat) :=
  if_pos ((columnArgOk_iff _ _ _).2 ⟨hnk, hc⟩)

/-- Under an NK of 4, 6 or 8 no free byte is drawn, and a column that exists has its value by R135. -/
theorem deriveColumn_of_count {s : State} (hnk : s.nk = 4 ∨ s.nk = 6 ∨ s.nk = 8) {c : Nat} (hc : s.nk.toNat ≤ c) :
    (s.deriveColumn c).fresh = s.fresh ∧ (c < 60 → ColumnRule (s.deriveColumn c).w s.nk.toNat c) := by
  have hpos : 0 < s.nk.toNat := by obtain h | h | h := hnk <;> rw [h] <;> decide
  rw [deriveColumn_of_columnCountOk s c ((columnCountOk_iff _).2 hnk)]
  exact ⟨rfl, columnRule_expandColumn s.w hpos hc⟩

/-- Settles O26: the length check of LDKEY, and KEXPCOL's one write. -/
theorem ldkeyNeedsACheckedKeyLength : Obligations.LdkeyNeedsACheckedKeyLength := by
  unfold Obligations.LdkeyNeedsACheckedKeyLength
  refine ⟨fun s h16 h24 h32 => exec_ldkey_refused (by simp [h16, h24, h32]), fun s c hnk hc => ?_⟩
  exact ⟨_, exec_kexpcol_of_columnArg hnk hc, rfl, fun _ _ => rfl, fun d hd => schedCol_deriveColumn_other s _ d hd,
    fun hcount => deriveColumn_of_count hcount hnk⟩

end Sys2Proof.Machine
end

section
/-! The block commands with a schedule and a 16-byte block: the state they end in, the round trip through DOUT and DIN, and what
their answer depends on (R201 to R205). -/

namespace Sys2Proof.Machine

/-! ### The encryption rounds undo the decryption rounds, and what `encBlock` reads of the schedule -/

theorem encRound_decRound (w : Sched) (k : Nat) (m : Mat) : encRound w (decRound w m k) k = m := by
  rw [encRound, decRound, subBytes_invSubBytes, shiftRows_invShiftRows, mixColumns_invMixColumns, addRoundKey_addRoundKey]

theorem foldl_encRound_foldl_decRound (w : Sched) (ks : List Nat) (m : Mat) :
    ks.foldl (encRound w) (ks.reverse.foldl (decRound w) m) = m := by
  induction ks with
  | nil => rfl
  | cons k ks ih => rw [List.reverse_cons, List.foldl_append, List.foldl_cons, List.foldl_cons, List.foldl_nil,
      encRound_decRound, ih]

theorem encBlock_decBlock (w : Sched) (nr : Nat) (b : Block) : encBlock w nr (decBlock w nr b) = b := by
  simp only [decBlock, encBlock, matOfBlock_blockOfMat, addRoundKey_addRoundKey, foldl_encRound_foldl_decRound,
    subBytes_invSubBytes, shiftRows_invShiftRows, blockOfMat_matOfBlock]

theorem encBlock_injective (w : Sched) (nr : Nat) : Function.Injective (encBlock w nr) :=
  Function.LeftInverse.injective (decBlock_encBlock w nr)

/-- `encBlock w` is the one inverse of `decBlock w`, which the round keys fix. -/
theorem encBlock_congr {nr : Nat} {v w : Sched} (h : SameRoundKeys nr v w) : encBlock v nr = encBlock w nr := by
  funext b
  rw [← encBlock_decBlock w nr (encBlock v nr b), decBlock_encBlock_of_sameRoundKeys h]

theorem sameRoundKeys_of_schedCol {nr : Nat} {v w : Sched} (h : ∀ c, c < 4 * (nr + 1) → schedCol v c = schedCol w c) :
    SameRoundKeys nr v w := fun k hk =>
  Mat.ext_get fun r c => by rw [roundKey_get, roundKey_get, h _ (by omega)]

/-! ### A block command whose checks pass -/

section

variable {s : State} {f : Sched → Nat → Block → Block}

/-- The block a block command with the function `f` puts into DOUT. -/
def State.blockOutput (s : State) (f : Sched → Nat → Block → Block) : Block := f s.w s.nr.toNat (s.loadBlock .din 0)

/-- The state in which a completing block command with `f` ends (R201, R202). -/
def State.afterBlock (s : State) (f : Sched → Nat → Block → Block) : State :=
  ((s.storeOut 0 (s.blockOutput f).toList).dropMat).complete 16

theorem blockCommand_of_checks (hsv : s.sv = true) (hd : s.dlen = 16) : s.blockCommand f = .next (s.afterBlock f) := by
  obtain ⟨hsv', -⟩ | ⟨-, hd', -⟩ | ⟨-, -, hnext⟩ := blockCommand_cases s f
  · exact absurd (hsv.symm.trans hsv') Bool.noConfusion
  · exact absurd hd hd'
  · exact hnext

theorem afterBlock_frame : s.afterBlock f =
    { s with
      dout := (s.afterBlock f).dout, mat := (s.afterBlock f).mat, fresh := (s.afterBlock f).fresh
      olen := 16, err := .none, busy := false } := rfl

theorem memRead_dout_afterBlock {i : Nat} (hi : i < 16) :
    memRead (s.afterBlock f).dout i = some (s.blockOutput f)[i] := by
  rw [State.afterBlock, complete_dout, dropMat_dout, storeOut_dout, memRead_memWriteBytes, Vector.length_toList,
    if_pos (by omega), Nat.sub_zero, List.getElem?_eq_getElem (by rwa [Vector.length_toList]), Vector.getElem_toList]

theorem loadByte_dout_afterBlock {i : Nat} (hi : i < 16) : (s.afterBlock f).loadByte .dout i = (s.blockOutput f)[i] := by
  rw [State.loadByte, cells_dout, memRead_dout_afterBlock hi, Option.getD_some]

theorem outBlock_afterBlock : (s.afterBlock f).outBlock 0 = s.blockOutput f :=
  Block.ext_getElem fun i hi => by
    rw [State.outBlock, loadBlock_getElem, Nat.mul_zero, Nat.zero_add, loadByte_dout_afterBlock hi]

theorem sameButResult_afterBlock : SameButResult 16 s (s.afterBlock f) := fun b off hoff => by
  have hstore : (s.afterBlock f).loadByte b off = (s.storeOut 0 (s.blockOutput f).toList).loadByte b off := by
    cases b <;> rfl
  have houtside : ¬ (b = .dout ∧ off < (s.blockOutput f).toList.length) := fun ⟨hb, hlt⟩ =>
    absurd (hoff hb) (by rwa [Vector.length_toList, ← Nat.not_le] at hlt)
  rw [hstore, loadByte_storeOut, dif_neg houtside]

/-- The copied bytes are the result's, since every one of them has been written. -/
theorem loadBlock_din_copy_afterBlock : { s.afterBlock f with din := (s.afterBlock f).dout }.loadBlock .din 0 = s.blockOutput f :=
  Block.ext_getElem fun i hi => by
    rw [loadBlock_getElem, State.loadByte, cells_din, Nat.zero_add, memRead_dout_afterBlock hi, Option.getD_some]

/-- A `g` that undoes `f` under every schedule finds the block again: the first command leaves SV, W and NR. -/
theorem blockCommand_roundTrip {g : Sched → Nat → Block → Block} (hundo : ∀ w nr b, g w nr (f w nr b) = b)
    (hsv : s.sv = true) (hd : s.dlen = 16) :
    ∃ t u, s.blockCommand f = .next t ∧ { t with din := t.dout }.blockCommand g = .next u ∧
      u.outBlock 0 = s.loadBlock .din 0 := by
  refine ⟨_, _, blockCommand_of_checks hsv hd, blockCommand_of_checks hsv hd, ?_⟩
  rw [outBlock_afterBlock, State.blockOutput, loadBlock_din_copy_afterBlock]
  exact hundo s.w s.nr.toNat (s.loadBlock .din 0)

end

/-- Settles O32: the state that the completing command ends in. -/
theorem blockCommandsComplete : Obligations.BlockCommandsComplete := by
  unfold Obligations.BlockCommandsComplete
  intro s hsv hd
  simp only [exec_encblk, exec_decblk]
  exact ⟨⟨_, blockCommand_of_checks hsv hd, afterBlock_frame, sameButResult_afterBlock, outBlock_afterBlock⟩,
    ⟨_, blockCommand_of_checks hsv hd, afterBlock_frame, sameButResult_afterBlock, outBlock_afterBlock⟩⟩

/-- Settles O36: `decBlock` and `encBlock` undo each other under the schedule that the first command leaves. -/
theorem blockRoundTrip : Obligations.BlockRoundTrip := by
  unfold Obligations.BlockRoundTrip
  intro s hsv hd
  simp only [exec_encblk, exec_decblk]
  exact ⟨blockCommand_roundTrip decBlock_encBlock hsv hd, blockCommand_roundTrip encBlock_decBlock hsv hd⟩

/-! ### What the answer depends on -/

/-- The block functions read round keys 0 to NR only (R204). -/
theorem exec_eq_blockCommand_congr {i : Instr} (hi : i = .encblk ∨ i = .decblk) :
    ∃ f, (∀ v w nr, SameRoundKeys nr v w → f v nr = f w nr) ∧ ∀ s, exec i s = s.blockCommand f := by
  obtain rfl | rfl := hi
  · exact ⟨encBlock, fun _ _ _ => encBlock_congr, exec_encblk⟩
  · exact ⟨decBlock, fun _ _ _ => decBlock_congr, exec_decblk⟩

/-- Settles O37: the round keys and the block are the same, so the result block is. -/
theorem blockResultDependsOnScheduleAndBlock : Obligations.BlockResultDependsOnScheduleAndBlock := by
  unfold Obligations.BlockResultDependsOnScheduleAndBlock
  intro s u t i hi hs hu hds hdu hnr hcols hbytes ht
  obtain ⟨f, hcongr, hf⟩ := exec_eq_blockCommand_congr hi
  rw [hf, blockCommand_of_checks hs hds] at ht
  cases ht
  refine ⟨u.afterBlock f, (hf u).trans (blockCommand_of_checks hu hdu), rfl, rfl, fun off (hoff : off < 16) => ?_⟩
  have hblock : s.loadBlock .din 0 = u.loadBlock .din 0 := Block.ext_getElem fun j hj => by
    rw [loadBlock_getElem, loadBlock_getElem, Nat.zero_add, hbytes j hj]
  have hout : s.blockOutput f = u.blockOutput f := by
    rw [State.blockOutput, State.blockOutput, hblock, hnr, hcongr s.w u.w _ (sameRoundKeys_of_schedCol (hnr ▸ hcols))]
  rw [loadByte_dout_afterBlock hoff, loadByte_dout_afterBlock hoff, hout]

end Sys2Proof.Machine
end

section
/-! The expansions run on the unit-operation bus: a list of unit operations takes one state to another whatever words follow it,
and such runs compose; from this EXPKEY, ENCBLK and DECBLK as their unit operations (R92, R137, R201, R202), and the window onto
the schedule that EXPKEY leaves (R39). -/

namespace Sys2Proof.Machine

/-! ### Runs on the bus -/

theorem run_add_of_run {M : Host.Core} {m : Nat} {s t : M.State} (h : M.run m s = .next t) (n : Nat) :
    M.run (m + n) s = M.run n t := by
  induction m generalizing s with
  | zero =>
    cases h
    rw [Nat.zero_add]
  | succ m ih =>
    rw [Nat.succ_add, Host.Core.run]
    rw [Host.Core.run] at h
    split at h
    · exact ih h
    · cases h
    · cases h

theorem run_one_of_step {M : Host.Core} {s t : M.State} (h : M.step s = .next t) : M.run 1 s = .next t := by
  rw [Host.Core.run, h]
  rfl

/-- The words `q` stand on the bus and no host move waits. -/
def State.onBus (s : State) (q : List Word) : State := { s with seq := q, host := [] }

/-- Running the words of `ops` one by one takes `s` to `t`, whatever words stand behind them. -/
def BusRun (ops : List Instr) (s t : State) : Prop :=
  ∀ more, Host.Core.run core ops.length (s.onBus (ops.map encode ++ more)) = .next (t.onBus more)

theorem BusRun.nil (s : State) : BusRun [] s s := fun _ => rfl

theorem BusRun.single {i : Instr} {s t : State} (hi : i.isHost = false)
    (h : ∀ q, exec i (s.onBus q) = .next (t.onBus q)) : BusRun [i] s t := fun more => by
  have hstep : step (s.onBus (encode i :: more)) = .next (t.onBus more) := by
    rw [step_of_bus rfl fun _ => (List.cons_ne_nil _ _).symm, issueUnit_of_decodeBus (decodeBus_encode hi)]
    exact h more
  exact run_one_of_step hstep

theorem BusRun.append {xs ys : List Instr} {s t u : State} (hx : BusRun xs s t) (hy : BusRun ys t u) :
    BusRun (xs ++ ys) s u := fun more => by
  rw [List.length_append, List.map_append, List.append_assoc]
  exact (run_add_of_run (hx _) _).trans (hy more)

theorem BusRun.cons {i : Instr} {ys : List Instr} {s t u : State} (hx : BusRun [i] s t) (hy : BusRun ys t u) :
    BusRun (i :: ys) s u :=
  hx.append hy

/-- Rounds: where `put x` holds `x` and the operations of round `k` turn it into `f x k`, all the rounds together fold `f`. -/
theorem BusRun.foldl {β : Type} {put : β → State} {f : β → Nat → β} {body : Nat → List Instr} {ks : List Nat}
    (h : ∀ k ∈ ks, ∀ x, BusRun (body k) (put x) (put (f x k))) (x : β) :
    BusRun (ks.flatMap body) (put x) (put (ks.foldl f x)) := by
  induction ks generalizing x with
  | nil => exact .nil _
  | cons k ks ih =>
    obtain ⟨hk, hrest⟩ := List.forall_mem_cons.1 h
    exact (hk x).append (ih hrest (f x k))

/-- What the statements run: the words of `ops` alone, with `b` as LDSTATE's operand. -/
theorem BusRun.run_withUnits {ops : List Instr} {s t : State} {b : Block} (h : BusRun ops { s with blkIn := b } t) :
    Host.Core.run core ops.length (s.withUnits ops b) = .next (t.onBus []) := by
  have hrun := h []
  rwa [List.append_nil] at hrun

/-! ### EXPKEY -/

theorem toNat_ofNat_of_le_nr {nr : BitVec 4} {k : Nat} (hk : k ≤ nr.toNat) : (BitVec.ofNat 8 k).toNat = k := by
  have hnr : nr.toNat < 16 := nr.isLt
  exact Nat.mod_eq_of_lt (by omega)

theorem busRun_ldkey {s : State} (hk : s.klen = 16 ∨ s.klen = 24 ∨ s.klen = 32) : BusRun [.ldkey] s s.loadKey :=
  .single rfl fun q => exec_ldkey_of_keyLength (s := s.onBus q) hk

theorem busRun_kexpcol {s : State} (hk : keySizeOk s.nk s.nr = true) {c : Nat} (hnk : s.nk.toNat ≤ c)
    (hc : c < 4 * (s.nr.toNat + 1)) (w : Sched) :
    BusRun [.kexpcol (BitVec.ofNat 8 c)] { s with w := w } { s with w := expandColumn s.nk.toNat w c } := by
  have hnr : s.nr.toNat < 16 := s.nr.isLt
  have harg : (BitVec.ofNat 8 c).toNat = c := Nat.mod_eq_of_lt (by omega)
  refine .single rfl fun q => ?_
  have h := exec_kexpcol_of_inRange (s := { s with w := w }.onBus q) (c := BitVec.ofNat 8 c) hk (harg.symm ▸ hnk)
    (harg.symm ▸ hc)
  rwa [harg] at h

/-- KEXPCOL for every derived column folds `expandColumn` over the columns (R137). -/
theorem busRun_kexpcols {s : State} (hk : keySizeOk s.nk s.nr = true) :
    BusRun ((List.range' s.nk.toNat (usedCols s.nr - s.nk.toNat)).map fun c => .kexpcol (BitVec.ofNat 8 c)) s
      { s with w := expandColumns s.nk s.nr s.w } := by
  rw [List.map_eq_flatMap]
  refine BusRun.foldl (put := fun w => { s with w := w }) (fun c hc w => ?_) s.w
  obtain ⟨hnk, hlt⟩ := List.mem_range'_1.1 hc
  exact busRun_kexpcol hk hnk (show c < usedCols s.nr by omega) w

theorem busRun_expkeyUnits {s : State} (hk : s.klen = 16 ∨ s.klen = 24 ∨ s.klen = 32) :
    BusRun (expkeyUnits s.loadKey.nk s.loadKey.nr) s s.expandKey :=
  (busRun_ldkey hk).cons (busRun_kexpcols (keySizeOk_loadKey ((keyLengthOk_iff _).2 hk)))

theorem length_expkeyUnits {nk nr : BitVec 4} (h : keySizeOk nk nr = true) :
    (expkeyUnits nk nr).length = 1 + 4 * (nr.toNat + 1) - nk.toNat := by
  have hle : nk.toNat ≤ 4 * (nr.toNat + 1) := by
    rcases (keySizeOk_iff nk nr).1 h with ⟨rfl, rfl⟩ | ⟨rfl, rfl⟩ | ⟨rfl, rfl⟩ <;> decide
  rw [expkeyUnits, List.length_cons, List.length_map, List.length_range', usedCols]
  omega

/-- Settles O29: LDKEY loads the key and the KEXPCOLs fold the columns as EXPKEY does. -/
theorem expkeyIsItsUnitOperations : Obligations.ExpkeyIsItsUnitOperations := by
  unfold Obligations.ExpkeyIsItsUnitOperations
  intro s t hk ht
  rw [exec_expkey_of_keyLength hk] at ht
  cases ht
  exact ⟨length_expkeyUnits (keySizeOk_loadKey ((keyLengthOk_iff _).2 hk)),
    _, (busRun_expkeyUnits hk).run_withUnits (b := s.blkIn), rfl, rfl, rfl, rfl⟩

/-! ### The window onto the schedule -/

theorem klen_of_expkey {s t : State} (h : exec .expkey s = .next t) (herr : t.err = .none) :
    s.klen = 16 ∨ s.klen = 24 ∨ s.klen = 32 := by
  refine Decidable.byContradiction fun hk => ?_
  rw [exec_expkey_of_not_keyLength hk] at h
  cases h
  cases herr

theorem step_readByte_sched {s : State} {off : Nat} {rest : List HostMove} (hhost : s.host = .readByte .sched off :: rest)
    (hseq : s.seq = []) (hbusy : s.busy = false) (hsv : s.sv = true) (hoff : off < 16 * (s.nr.toNat + 1)) (hcap : off < 240) :
    step s = .next ({ s with host := rest }.answer (schedByte s.w off).toNat 0) := by
  have hused : off < 4 * usedCols s.nr := by
    rw [usedCols]
    omega
  have hread : (s.sv && decide (off < 4 * usedCols s.nr)) = true := by rw [hsv, decide_eq_true hused]; rfl
  rw [step_readByte hhost hseq hbusy (decide_eq_true hcap)]
  exact congrArg Host.Outcome.next (if_pos hread)

/-- Byte `off` of the key is byte `off mod 4` of column `off div 4` (R133, R134). -/
theorem schedByte_expandKey {s : State} (hk : s.klen = 16 ∨ s.klen = 24 ∨ s.klen = 32) {off : Nat} (hoff : off < s.klen) :
    schedByte s.expandKey.w off = s.loadByte .keybuf off := by
  obtain ⟨-, -, hkey, -⟩ := holdsSchedule_expandKey hk
  rw [schedByte, hkey _ _ (by omega)]
  simp only [Nat.div_add_mod]

/-- Settles O30: with SV = 1 and the offset below the schedule's end the window gives W's byte. -/
theorem scheduleWindowShowsTheKeyAndW : Obligations.ScheduleWindowShowsTheKeyAndW := by
  unfold Obligations.ScheduleWindowShowsTheKeyAndW
  intro s t off rest ht herr hseq hoff
  have hk := klen_of_expkey ht herr
  obtain ⟨-, hnr, -, hle⟩ := keySize_of_keyLength hk
  rw [exec_expkey_of_keyLength hk] at ht
  cases ht
  have hcap : off < 240 := by
    rw [complete_nr, setSv_nr, expandKey_nr, hnr] at hoff
    omega
  exact ⟨_, step_readByte_sched rfl hseq rfl rfl hoff hcap, rfl,
    fun hlt => congrArg BitVec.toNat (schedByte_expandKey hk hlt), rfl⟩

/-! ### ENCBLK and DECBLK -/

theorem busRun_addroundkey {s : State} {k : Nat} (hk : k ≤ s.nr.toNat) :
    BusRun [.addroundkey (BitVec.ofNat 8 k)] s (s.onMat (addRoundKey s.w k)) := by
  have harg := toNat_ofNat_of_le_nr hk
  refine .single rfl fun q => ?_
  have h := exec_addroundkey_of_le (s := s.onBus q) (k := BitVec.ofNat 8 k) (harg.symm ▸ hk)
  rwa [harg] at h

theorem busRun_ldstate (s : State) : BusRun [.ldstate] s { s with mat := matOfBlock s.blkIn } :=
  .single rfl fun _ => exec_ldstate _

theorem busRun_ststate (s : State) : BusRun [.ststate] s { s with blkOut := blockOfMat s.mat } :=
  .single rfl fun _ => exec_ststate _

theorem busRun_subbytes (s : State) : BusRun [.subbytes] s (s.onMat subBytes) := .single rfl fun _ => exec_subbytes _

theorem busRun_shiftrows (s : State) : BusRun [.shiftrows] s (s.onMat shiftRows) := .single rfl fun _ => exec_shiftrows _

theorem busRun_mixcolumns (s : State) : BusRun [.mixcolumns] s (s.onMat mixColumns) := .single rfl fun _ => exec_mixcolumns _

theorem busRun_invsubbytes (s : State) : BusRun [.invsubbytes] s (s.onMat invSubBytes) :=
  .single rfl fun _ => exec_invsubbytes _

theorem busRun_invshiftrows (s : State) : BusRun [.invshiftrows] s (s.onMat invShiftRows) :=
  .single rfl fun _ => exec_invshiftrows _

theorem busRun_invmixcolumns (s : State) : BusRun [.invmixcolumns] s (s.onMat invMixColumns) :=
  .single rfl fun _ => exec_invmixcolumns _

theorem busRun_encRound {s : State} {k : Nat} (hk : k ≤ s.nr.toNat) (m : Mat) :
    BusRun [.subbytes, .shiftrows, .mixcolumns, .addroundkey (BitVec.ofNat 8 k)] { s with mat := m }
      { s with mat := encRound s.w m k } :=
  (busRun_subbytes { s with mat := m }).cons <| (busRun_shiftrows { s with mat := subBytes m }).cons <|
    (busRun_mixcolumns { s with mat := shiftRows (subBytes m) }).cons <|
    busRun_addroundkey (s := { s with mat := mixColumns (shiftRows (subBytes m)) }) hk

theorem busRun_decRound {s : State} {k : Nat} (hk : k ≤ s.nr.toNat) (m : Mat) :
    BusRun [.addroundkey (BitVec.ofNat 8 k), .invmixcolumns, .invshiftrows, .invsubbytes] { s with mat := m }
      { s with mat := decRound s.w m k } :=
  (busRun_addroundkey (s := { s with mat := m }) hk).cons <|
    (busRun_invmixcolumns { s with mat := addRoundKey s.w k m }).cons <|
    (busRun_invshiftrows { s with mat := invMixColumns (addRoundKey s.w k m) }).cons <|
    busRun_invsubbytes { s with mat := invShiftRows (invMixColumns (addRoundKey s.w k m)) }

theorem le_of_mem_rounds {nr k : Nat} (hk : k ∈ List.range' 1 (nr - 1)) : k ≤ nr := by
  have := List.mem_range'_1.1 hk
  omega

/-- ENCBLK's operations hand back `encBlock` of LDSTATE's operand and write S and the block handed back only (R201). -/
theorem busRun_encblkUnits (s : State) :
    ∃ m, BusRun (encblkUnits s.nr.toNat) s { s with mat := m, blkOut := encBlock s.w s.nr.toNat s.blkIn } := by
  have hstart := (busRun_ldstate s).cons (busRun_addroundkey (k := 0) (Nat.zero_le _))
  have hrounds := BusRun.foldl (put := fun m => { s with mat := m })
    (fun k hk m => busRun_encRound (le_of_mem_rounds hk) m) (addRoundKey s.w 0 (matOfBlock s.blkIn))
  have hlast (m : Mat) := (busRun_subbytes { s with mat := m }).cons <| (busRun_shiftrows _).cons <|
    (busRun_addroundkey (s := { s with mat := shiftRows (subBytes m) }) (Nat.le_refl s.nr.toNat)).cons <| busRun_ststate _
  exact ⟨_, (hstart.append hrounds).append (hlast _)⟩

/-- DECBLK's operations, likewise (R202). -/
theorem busRun_decblkUnits (s : State) :
    ∃ m, BusRun (decblkUnits s.nr.toNat) s { s with mat := m, blkOut := decBlock s.w s.nr.toNat s.blkIn } := by
  have hstart := (busRun_ldstate s).cons <|
    (busRun_addroundkey (s := { s with mat := matOfBlock s.blkIn }) (Nat.le_refl s.nr.toNat)).cons <|
    (busRun_invshiftrows _).cons <| busRun_invsubbytes _
  have hrounds := BusRun.foldl (put := fun m => { s with mat := m })
    (fun k hk m => busRun_decRound (le_of_mem_rounds (List.mem_reverse.1 hk)) m)
    (invSubBytes (invShiftRows (addRoundKey s.w s.nr.toNat (matOfBlock s.blkIn))))
  have hlast (m : Mat) := (busRun_addroundkey (s := { s with mat := m }) (k := 0) (Nat.zero_le _)).cons (busRun_ststate _)
  exact ⟨_, (hstart.append hrounds).append (hlast _)⟩

theorem length_rounds {nr : Nat} (hnr : 1 ≤ nr) (ks : List Nat) (hks : ks.length = nr - 1) {body : Nat → List Instr}
    (hbody : ∀ k, (body k).length = 4) : (ks.flatMap body).length + 6 = 4 * nr + 2 := by
  rw [List.length_flatMap, funext hbody, List.map_const', List.sum_replicate_nat, hks]
  omega

theorem length_encblkUnits {nr : Nat} (hnr : 1 ≤ nr) : (encblkUnits nr).length = 4 * nr + 2 := by
  have h := length_rounds hnr (List.range' 1 (nr - 1)) List.length_range'
    (body := fun k => [.subbytes, .shiftrows, .mixcolumns, .addroundkey (BitVec.ofNat 8 k)]) fun _ => rfl
  simp only [encblkUnits, List.length_append, List.length_cons, List.length_nil]
  omega

theorem length_decblkUnits {nr : Nat} (hnr : 1 ≤ nr) : (decblkUnits nr).length = 4 * nr + 2 := by
  have h := length_rounds hnr (List.range' 1 (nr - 1)).reverse (by rw [List.length_reverse, List.length_range'])
    (body := fun k => [.addroundkey (BitVec.ofNat 8 k), .invmixcolumns, .invshiftrows, .invsubbytes]) fun _ => rfl
  simp only [decblkUnits, List.length_append, List.length_cons, List.length_nil]
  omega

theorem one_le_nr_of_keySizeOk {nk nr : BitVec 4} (h : keySizeOk nk nr = true) : 1 ≤ nr.toNat := by
  rcases (keySizeOk_iff nk nr).1 h with ⟨rfl, rfl⟩ | ⟨rfl, rfl⟩ | ⟨rfl, rfl⟩ <;> decide

/-- Settles O34: LDSTATE, the rounds and STSTATE compute `encBlock` of the block in DIN. -/
theorem encblkIsItsUnitOperations : Obligations.EncblkIsItsUnitOperations := by
  unfold Obligations.EncblkIsItsUnitOperations
  intro s hsv hk hd
  obtain ⟨m, hrun⟩ := busRun_encblkUnits { s with blkIn := s.loadBlock .din 0 }
  refine ⟨length_encblkUnits (one_le_nr_of_keySizeOk hk), _, _, blockCommand_of_checks hsv hd, hrun.run_withUnits, ?_⟩
  rw [outBlock_afterBlock]
  exact ⟨rfl, rfl, rfl, rfl⟩

/-- Settles O35: LDSTATE, the rounds and STSTATE compute `decBlock` of the block in DIN. -/
theorem decblkIsItsUnitOperations : Obligations.DecblkIsItsUnitOperations := by
  unfold Obligations.DecblkIsItsUnitOperations
  intro s hsv hk hd
  obtain ⟨m, hrun⟩ := busRun_decblkUnits { s with blkIn := s.loadBlock .din 0 }
  refine ⟨length_decblkUnits (one_le_nr_of_keySizeOk hk), _, _, blockCommand_of_checks hsv hd, hrun.run_withUnits, ?_⟩
  rw [outBlock_afterBlock]
  exact ⟨rfl, rfl, rfl, rfl⟩

end Sys2Proof.Machine
end

section
/-! The bulk commands: the blocks each mode puts into DOUT, the frame of a completing command, and what the answer depends on
(R51, R59, R221 to R233). -/

namespace Sys2Proof.Machine

/-! ### The modes with a block function `e` that reads the schedule -/

def ecbMode (e : Sched → Nat → Block → Block) (w : Sched) (nr : Nat) (_ : Block) (x : List Block) : List Block :=
  ecbBlocks (e w nr) x

def cbcEncMode (e : Sched → Nat → Block → Block) (w : Sched) (nr : Nat) (iv : Block) (x : List Block) : List Block :=
  cbcEncBlocks (e w nr) iv x

def cbcDecMode (e : Sched → Nat → Block → Block) (w : Sched) (nr : Nat) (iv : Block) (x : List Block) : List Block :=
  cbcDecBlocks (e w nr) iv x

theorem exec_encecb_eq_mode (s : State) : exec .encecb s = s.bulkCommand false (ecbMode encBlock) := rfl

theorem exec_dececb_eq_mode (s : State) : exec .dececb s = s.bulkCommand false (ecbMode decBlock) := rfl

theorem exec_enccbc_eq_mode (s : State) : exec .enccbc s = s.bulkCommand true (cbcEncMode encBlock) := rfl

theorem exec_deccbc_eq_mode (s : State) : exec .deccbc s = s.bulkCommand true (cbcDecMode decBlock) := rfl

/-- What all four functions of the bulk commands have in common: one output block for each input block, and no use of the
schedule but the round keys 0 to NR, nor of the IV in ECB mode (R204, R220). -/
structure IsBulkFunction (cbc : Bool) (f : Sched → Nat → Block → List Block → List Block) : Prop where
  length : ∀ w nr iv x, (f w nr iv x).length = x.length
  congr : ∀ v w nr iv iv' x, SameRoundKeys nr v w → (cbc = true → iv = iv') → f v nr iv x = f w nr iv' x

theorem isBulkFunction_ecbMode {e : Sched → Nat → Block → Block} (he : ∀ v w nr, SameRoundKeys nr v w → e v nr = e w nr) :
    IsBulkFunction false (ecbMode e) :=
  ⟨fun _ _ _ x => ecbBlocks_length _ x, fun v w nr _ _ _ hkeys _ => by rw [ecbMode, ecbMode, he v w nr hkeys]⟩

theorem isBulkFunction_cbcEncMode {e : Sched → Nat → Block → Block} (he : ∀ v w nr, SameRoundKeys nr v w → e v nr = e w nr) :
    IsBulkFunction true (cbcEncMode e) :=
  ⟨fun _ _ iv x => cbcEncBlocks_length _ iv x,
    fun v w nr _ _ _ hkeys hiv => by rw [cbcEncMode, cbcEncMode, he v w nr hkeys, hiv rfl]⟩

theorem isBulkFunction_cbcDecMode {e : Sched → Nat → Block → Block} (he : ∀ v w nr, SameRoundKeys nr v w → e v nr = e w nr) :
    IsBulkFunction true (cbcDecMode e) :=
  ⟨fun _ _ iv x => cbcDecBlocks_length _ iv x,
    fun v w nr _ _ _ hkeys hiv => by rw [cbcDecMode, cbcDecMode, he v w nr hkeys, hiv rfl]⟩

theorem exec_eq_bulkFunction {i : Instr} (hi : i.isBulk = true) :
    ∃ f, IsBulkFunction (i == .enccbc || i == .deccbc) f ∧
      ∀ s, exec i s = s.bulkCommand (i == .enccbc || i == .deccbc) f := by
  cases i with
  | encecb => exact ⟨_, isBulkFunction_ecbMode fun _ _ _ => encBlock_congr, exec_encecb_eq_mode⟩
  | dececb => exact ⟨_, isBulkFunction_ecbMode fun _ _ _ => decBlock_congr, exec_dececb_eq_mode⟩
  | enccbc => exact ⟨_, isBulkFunction_cbcEncMode fun _ _ _ => encBlock_congr, exec_enccbc_eq_mode⟩
  | deccbc => exact ⟨_, isBulkFunction_cbcDecMode fun _ _ _ => decBlock_congr, exec_deccbc_eq_mode⟩
  | _ => cases hi

/-! ### Block by block -/

theorem cbcEncBlocks_getElem_zero (f : Block → Block) (cv : Block) (x : List Block) (h : 0 < (cbcEncBlocks f cv x).length)
    (hx : 0 < x.length) : (cbcEncBlocks f cv x)[0] = f (xor16 x[0] cv) := by
  cases x with
  | nil => cases hx
  | cons p rest => rfl

/-- From block 1 on the chain value is the ciphertext block just produced (R226, R227). -/
theorem cbcEncBlocks_getElem_succ (f : Block → Block) (cv : Block) (x : List Block) (i : Nat)
    (h : i + 1 < (cbcEncBlocks f cv x).length) (hx : i + 1 < x.length) :
    (cbcEncBlocks f cv x)[i + 1] = f (xor16 x[i + 1] (cbcEncBlocks f cv x)[i]) := by
  induction x generalizing cv i with
  | nil => cases hx
  | cons p rest ih =>
    cases i with
    | zero => exact cbcEncBlocks_getElem_zero f _ rest _ (by simpa using hx)
    | succ i => exact ih _ i _ (by simpa using hx)

theorem cbcDecBlocks_getElem_zero (f : Block → Block) (cv : Block) (x : List Block) (h : 0 < (cbcDecBlocks f cv x).length)
    (hx : 0 < x.length) : (cbcDecBlocks f cv x)[0] = xor16 (f x[0]) cv := by
  cases x with
  | nil => cases hx
  | cons p rest => rfl

/-- From block 1 on the chain value is the ciphertext block just consumed (R228, R229). -/
theorem cbcDecBlocks_getElem_succ (f : Block → Block) (cv : Block) (x : List Block) (i : Nat)
    (h : i + 1 < (cbcDecBlocks f cv x).length) (hx : i + 1 < x.length) :
    (cbcDecBlocks f cv x)[i + 1] = xor16 (f x[i + 1]) x[i] := by
  induction x generalizing cv i with
  | nil => cases hx
  | cons p rest ih =>
    cases i with
    | zero => exact cbcDecBlocks_getElem_zero f _ rest _ (by simpa using hx)
    | succ i => exact ih _ i _ (by simpa using hx)

/-! ### The state in which a completing bulk command ends -/

/-- The block function `e` under the schedule of the key in KEYBUF. -/
def State.underKey (s : State) (e : Sched → Nat → Block → Block) : Block → Block := e s.expandKey.w s.expandKey.nr.toNat

section

variable {cbc : Bool} {s : State} {i : Nat}

theorem outBlock_afterBulk {f : Sched → Nat → Block → List Block → List Block} (hi : i < (s.outputBlocks f).length) :
    (s.afterBulk cbc f).outBlock i = (s.outputBlocks f)[i] :=
  Block.ext_getElem fun j hj => by rw [State.outBlock, loadBlock_getElem, loadByte_dout_afterBulk hi hj]

theorem length_outputBlocks {f : Sched → Nat → Block → List Block → List Block} (hf : IsBulkFunction cbc f) :
    (s.outputBlocks f).length = s.dlen / 16 := by
  rw [State.outputBlocks, hf.length, dataBlocks_length]

theorem bulkFrame_afterBulk {f : Sched → Nat → Block → List Block → List Block} (hf : IsBulkFunction cbc f)
    (hd : s.dlen % 16 = 0) : BulkFrame cbc s (s.afterBulk cbc f) := by
  have hlen : (blocksBytes (s.outputBlocks f)).length = s.dlen := by
    rw [blocksBytes_length, length_outputBlocks hf]
    omega
  refine ⟨?_, fun b off hoff => ?_⟩
  · rw [State.afterBulk, bulkResult_eq]
    cases cbc <;> rfl
  · have hstore : (s.afterBulk cbc f).loadByte b off = (s.storeOut 0 (blocksBytes (s.outputBlocks f))).loadByte b off :=
      loadByte_congr (by cases b <;> simp) (by simp) off
    have houtside : ¬ (b = .dout ∧ off < (blocksBytes (s.outputBlocks f)).length) := fun ⟨hb, hlt⟩ =>
      absurd (hoff hb) (by omega)
    rw [hstore, loadByte_storeOut, dif_neg houtside]

variable {e : Sched → Nat → Block → Block}

theorem outBlock_ecbMode (hi : i < s.dlen / 16) :
    (s.afterBulk cbc (ecbMode e)).outBlock i = s.underKey e (s.loadBlock .din (16 * i)) := by
  have hout : i < (s.outputBlocks (ecbMode e)).length := by
    rwa [State.outputBlocks, ecbMode, ecbBlocks_length, dataBlocks_length]
  rw [outBlock_afterBulk hout]
  simp only [State.outputBlocks, ecbMode, ecbBlocks, List.getElem_map, dataBlocks_getElem, State.underKey]

theorem outBlock_cbcEncMode_zero (h : 0 < s.dlen / 16) :
    (s.afterBulk cbc (cbcEncMode e)).outBlock 0 = s.underKey e (xor16 (s.loadBlock .din 0) (s.loadBlock .ivbuf 0)) := by
  have hdata : 0 < s.dataBlocks.length := by rwa [dataBlocks_length]
  have hout : 0 < (s.outputBlocks (cbcEncMode e)).length := by rwa [State.outputBlocks, cbcEncMode, cbcEncBlocks_length]
  rw [outBlock_afterBulk hout]
  simp only [State.outputBlocks, cbcEncMode, cbcEncBlocks_getElem_zero _ _ _ _ hdata, dataBlocks_getElem]
  rfl

theorem outBlock_cbcEncMode_succ (h : i + 1 < s.dlen / 16) :
    (s.afterBulk cbc (cbcEncMode e)).outBlock (i + 1) =
      s.underKey e (xor16 (s.loadBlock .din (16 * (i + 1))) ((s.afterBulk cbc (cbcEncMode e)).outBlock i)) := by
  have hdata : i + 1 < s.dataBlocks.length := by rwa [dataBlocks_length]
  have hout : i + 1 < (s.outputBlocks (cbcEncMode e)).length := by
    rwa [State.outputBlocks, cbcEncMode, cbcEncBlocks_length]
  rw [outBlock_afterBulk hout, outBlock_afterBulk (Nat.lt_of_succ_lt hout)]
  simp only [State.outputBlocks, cbcEncMode, cbcEncBlocks_getElem_succ _ _ _ i _ hdata, dataBlocks_getElem]
  rfl

theorem outBlock_cbcDecMode_zero (h : 0 < s.dlen / 16) :
    (s.afterBulk cbc (cbcDecMode e)).outBlock 0 = xor16 (s.underKey e (s.loadBlock .din 0)) (s.loadBlock .ivbuf 0) := by
  have hdata : 0 < s.dataBlocks.length := by rwa [dataBlocks_length]
  have hout : 0 < (s.outputBlocks (cbcDecMode e)).length := by rwa [State.outputBlocks, cbcDecMode, cbcDecBlocks_length]
  rw [outBlock_afterBulk hout]
  simp only [State.outputBlocks, cbcDecMode, cbcDecBlocks_getElem_zero _ _ _ _ hdata, dataBlocks_getElem]
  rfl

theorem outBlock_cbcDecMode_succ (h : i + 1 < s.dlen / 16) :
    (s.afterBulk cbc (cbcDecMode e)).outBlock (i + 1) =
      xor16 (s.underKey e (s.loadBlock .din (16 * (i + 1)))) (s.loadBlock .din (16 * i)) := by
  have hdata : i + 1 < s.dataBlocks.length := by rwa [dataBlocks_length]
  have hout : i + 1 < (s.outputBlocks (cbcDecMode e)).length := by
    rwa [State.outputBlocks, cbcDecMode, cbcDecBlocks_length]
  rw [outBlock_afterBulk hout]
  simp only [State.outputBlocks, cbcDecMode, cbcDecBlocks_getElem_succ _ _ _ i _ hdata, dataBlocks_getElem]
  rfl

end

end Sys2Proof.Machine
end

section
/-! The statements about the bulk commands, from the output blocks of each mode (R51, R59, R221 to R233). -/

namespace Sys2Proof.Machine

/-! ### Completion -/

/-- Settles O38: the schedule that EXPKEY leaves is the one the command expands. -/
theorem ecbCommandsComplete : Obligations.EcbCommandsComplete := by
  unfold Obligations.EcbCommandsComplete
  intro s hok
  have ⟨_, hk, haligned, _⟩ := hok
  exact ⟨_, exec_expkey_of_keyLength hk,
    ⟨_, (exec_encecb_eq_mode s).trans (bulkCommand_of_operandsOk hok _),
      bulkFrame_afterBulk (isBulkFunction_ecbMode fun _ _ _ => encBlock_congr) haligned, fun _ => outBlock_ecbMode⟩,
    ⟨_, (exec_dececb_eq_mode s).trans (bulkCommand_of_operandsOk hok _),
      bulkFrame_afterBulk (isBulkFunction_ecbMode fun _ _ _ => decBlock_congr) haligned, fun _ => outBlock_ecbMode⟩⟩

/-- Settles O39: block 0 is chained with the IV, each later block with the output block before it. -/
theorem enccbcCompletes : Obligations.EnccbcCompletes := by
  unfold Obligations.EnccbcCompletes
  intro s hok
  have ⟨_, hk, haligned, _⟩ := hok
  refine ⟨_, _, exec_expkey_of_keyLength hk, (exec_enccbc_eq_mode s).trans (bulkCommand_of_operandsOk hok _),
    bulkFrame_afterBulk (isBulkFunction_cbcEncMode fun _ _ _ => encBlock_congr) haligned, fun i hi => ?_⟩
  cases i with
  | zero => exact outBlock_cbcEncMode_zero hi
  | succ i => exact outBlock_cbcEncMode_succ hi

/-- Settles O40: block 0 is chained with the IV, each later block with the input block before it. -/
theorem deccbcCompletes : Obligations.DeccbcCompletes := by
  unfold Obligations.DeccbcCompletes
  intro s hok
  have ⟨_, hk, haligned, _⟩ := hok
  refine ⟨_, _, exec_expkey_of_keyLength hk, (exec_deccbc_eq_mode s).trans (bulkCommand_of_operandsOk hok _),
    bulkFrame_afterBulk (isBulkFunction_cbcDecMode fun _ _ _ => decBlock_congr) haligned, fun i hi => ?_⟩
  cases i with
  | zero => exact outBlock_cbcDecMode_zero hi
  | succ i => exact outBlock_cbcDecMode_succ hi

/-- Settles O41: no block of data gives no block of output, so no byte is written. -/
theorem emptyBufferCompletes : Obligations.EmptyBufferCompletes := by
  unfold Obligations.EmptyBufferCompletes
  intro s i hi hd hk hiv
  obtain ⟨f, hf, hexec⟩ := exec_eq_bulkFunction hi
  have hok : BulkOperandsOk (i == .enccbc || i == .deccbc) s :=
    ⟨hd ▸ fits_zero s, hk, by rw [hd], fun hcbc => hiv (by simpa using hcbc)⟩
  obtain ⟨-, hbytes⟩ := bulkFrame_afterBulk hf (show s.dlen % 16 = 0 by rw [hd])
  refine ⟨_, (hexec s).trans (bulkCommand_of_operandsOk hok f), ?_, ?_, ?_, fun b off => hbytes b off fun _ => ?_⟩
  · rw [State.afterBulk, bulkEpilogue_olen]
    exact hd
  · rw [State.afterBulk, bulkEpilogue_err]
  · rw [State.afterBulk, bulkEpilogue_sv]
  · rw [hd]
    exact off.zero_le

/-! ### Equal blocks, a wrong IV, one block -/

theorem xor16_right_inj {x y z : Block} : xor16 x y = xor16 x z ↔ y = z := by
  have hcomm (a b : Block) : xor16 a b = xor16 b a := Block.ext_getElem fun i hi => by
    rw [xor16_getElem, xor16_getElem, BitVec.xor_comm]
  refine ⟨fun h => ?_, fun h => by rw [h]⟩
  rw [← xor16_xor16 y x, ← xor16_xor16 z x, hcomm y x, h, hcomm z x]

/-- Settles O43: an ECB block depends on its own input only; in CBC `C_0 = E(P ^ IV)` and `C_1 = E(P ^ C_0)`, and `E` is
injective. -/
theorem equalBlocksInEcbAndCbc : Obligations.EqualBlocksInEcbAndCbc := by
  unfold Obligations.EqualBlocksInEcbAndCbc
  refine ⟨fun s t i j hok ht hi hj hblock => ?_, fun s t hok ht hn hblock => ?_⟩
  · rw [exec_encecb_eq_mode, bulkCommand_of_operandsOk hok] at ht
    cases ht
    rw [outBlock_ecbMode hi, outBlock_ecbMode hj, hblock]
  · rw [exec_enccbc_eq_mode, bulkCommand_of_operandsOk hok] at ht
    cases ht
    have hfirst := outBlock_cbcEncMode_zero (cbc := true) (s := s) (e := encBlock) (by omega)
    have hsecond := outBlock_cbcEncMode_succ (cbc := true) (s := s) (e := encBlock) (i := 0) (by omega)
    rw [← hblock] at hsecond
    calc _ ↔ s.underKey encBlock (xor16 (s.loadBlock .din 0) ((s.afterBulk true (cbcEncMode encBlock)).outBlock 0)) =
          s.underKey encBlock (xor16 (s.loadBlock .din 0) (s.loadBlock .ivbuf 0)) := by rw [← hsecond, ← hfirst]
      _ ↔ _ := (encBlock_injective _ _).eq_iff.trans xor16_right_inj

/-- Settles O44: block 0 is the only one chained with the IV. -/
theorem wrongIvCorruptsBlockZeroOnly : Obligations.WrongIvCorruptsBlockZeroOnly := by
  unfold Obligations.WrongIvCorruptsBlockZeroOnly
  intro s t u iv hok ht hu
  have hok' : BulkOperandsOk true { s with ivbuf := iv } := hok
  rw [exec_deccbc_eq_mode, bulkCommand_of_operandsOk hok] at ht
  rw [exec_deccbc_eq_mode, bulkCommand_of_operandsOk hok'] at hu
  cases ht
  cases hu
  refine ⟨fun h => ?_, fun i hi hlt => ?_⟩
  · rw [outBlock_cbcDecMode_zero h, outBlock_cbcDecMode_zero (s := { s with ivbuf := iv }) h]
    exact xor16_right_inj
  · obtain ⟨i, rfl⟩ := Nat.exists_eq_add_of_le' hi
    rw [outBlock_cbcDecMode_succ hlt, outBlock_cbcDecMode_succ (s := { s with ivbuf := iv }) hlt]
    rfl

/-- Settles O45: both commands apply the block function to the same block under the same schedule. -/
theorem oneBlockEcbEqualsBlockCommand : Obligations.OneBlockEcbEqualsBlockCommand := by
  unfold Obligations.OneBlockEcbEqualsBlockCommand
  intro s hok hd
  have ⟨_, hk, _, _⟩ := hok
  have hone : 0 < s.dlen / 16 := by omega
  refine ⟨_, exec_expkey_of_keyLength hk,
    ⟨_, _, (exec_encblk _).trans (blockCommand_of_checks rfl hd),
      (exec_encecb_eq_mode s).trans (bulkCommand_of_operandsOk hok _), ?_⟩,
    ⟨_, _, (exec_decblk _).trans (blockCommand_of_checks rfl hd),
      (exec_dececb_eq_mode s).trans (bulkCommand_of_operandsOk hok _), ?_⟩⟩
  · rw [outBlock_ecbMode hone, outBlock_afterBlock]
    rfl
  · rw [outBlock_ecbMode hone, outBlock_afterBlock]
    rfl

/-! ### What the answer depends on -/

section

variable {cbc : Bool} {s u : State}

theorem operandsOk_iff : BulkOperandsOk cbc s ↔ s.fits s.dlen = true ∧ s.bulkError cbc = none := by
  rw [bulkError_none_iff, BulkOperandsOk]

theorem fits_congr (h : SameBulkOperands cbc s u) : s.fits s.dlen = u.fits u.dlen := by
  obtain ⟨-, hd, hmax, -⟩ := h
  rw [State.fits, State.fits, hd, hmax]

theorem bulkError_congr (h : SameBulkOperands cbc s u) : s.bulkError cbc = u.bulkError cbc := by
  obtain ⟨hk, hd, -, hiv, -⟩ := h
  unfold State.bulkError
  rw [hk, hd]
  cases cbc with
  | false => rfl
  | true => rw [hiv rfl]

theorem dataBlocks_congr (h : SameBulkOperands cbc s u) : s.dataBlocks = u.dataBlocks := by
  obtain ⟨-, hd, -, -, -, hdin, -⟩ := h
  refine List.ext_getElem (by rw [dataBlocks_length, dataBlocks_length, hd]) fun i hi _ =>
    Block.ext_getElem fun j hj => ?_
  rw [dataBlocks_length] at hi
  rw [dataBlocks_getElem, dataBlocks_getElem, loadBlock_getElem, loadBlock_getElem, hdin _ (by omega)]

theorem ivBlock_congr (h : SameBulkOperands cbc s u) (hcbc : cbc = true) (hlen : s.ivlen = 16) : s.ivBlock = u.ivBlock := by
  obtain ⟨-, -, -, -, -, -, hiv⟩ := h
  exact Block.ext_getElem fun i hi => by
    rw [State.ivBlock, State.ivBlock, loadBlock_getElem, loadBlock_getElem, hiv hcbc _ (by omega)]

theorem outputBlocks_congr {f : Sched → Nat → Block → List Block → List Block} (hf : IsBulkFunction cbc f)
    (hok : BulkOperandsOk cbc s) (h : SameBulkOperands cbc s u) : s.outputBlocks f = u.outputBlocks f := by
  obtain ⟨-, hk, -, hivlen⟩ := hok
  have ⟨hklen, _, _, _, hkey, _⟩ := h
  have hnr : s.expandKey.nr = u.expandKey.nr := by rw [expandKey_nr, expandKey_nr, hklen]
  rw [State.outputBlocks, State.outputBlocks, ← dataBlocks_congr h, ← hnr]
  exact hf.congr _ _ _ _ _ _ (sameRoundKeys_expandKey hk hklen.symm hkey) fun hcbc => ivBlock_congr h hcbc (hivlen hcbc)

theorem sameAnswer_afterBulk {f : Sched → Nat → Block → List Block → List Block} (hf : IsBulkFunction cbc f)
    (hok : BulkOperandsOk cbc s) (h : SameBulkOperands cbc s u) : SameAnswer (s.afterBulk cbc f) (u.afterBulk cbc f) := by
  have ⟨_, _, haligned, _⟩ := hok
  have ⟨_, hd, _⟩ := h
  have hout := outputBlocks_congr hf hok h
  refine ⟨by simp, by simp [hd], fun off hoff => ?_⟩
  have hoff : off < s.dlen := by simpa using hoff
  have hi : off / 16 < (s.outputBlocks f).length := by
    rw [length_outputBlocks hf]
    omega
  rw [← Nat.div_add_mod off 16, loadByte_dout_afterBulk hi (Nat.mod_lt _ (by decide)),
    loadByte_dout_afterBulk (hout ▸ hi) (Nat.mod_lt _ (by decide))]
  simp only [hout]

end

/-- Settles O46: the checks see the lengths only, and then the output blocks are those of the same key, data and IV. -/
theorem bulkAnswerDependsOnItsOperands : Obligations.BulkAnswerDependsOnItsOperands := by
  unfold Obligations.BulkAnswerDependsOnItsOperands
  intro s u t i hi hsame ht
  obtain ⟨f, hf, hexec⟩ := exec_eq_bulkFunction hi
  have hfits := fits_congr hsame
  have herror := bulkError_congr hsame
  rw [hexec] at ht ⊢
  obtain ⟨-, hrefused⟩ | ⟨hfit, k, hk, hnext⟩ | ⟨hfit, hnone, -⟩ := bulkCommand_cases s _ f
  · rw [hrefused] at ht
    cases ht
  · rw [hnext] at ht
    cases ht
    exact ⟨_, bulkCommand_of_bulkError (hfits ▸ hfit) (herror ▸ hk) f, rfl, rfl, nofun⟩
  · have hok := operandsOk_iff.2 ⟨hfit, hnone⟩
    rw [bulkCommand_of_operandsOk hok] at ht
    cases ht
    exact ⟨_, bulkCommand_of_operandsOk (operandsOk_iff.2 ⟨hfits ▸ hfit, herror ▸ hnone⟩) f, sameAnswer_afterBulk hf hok hsame⟩

/-! ### Data above MAX_DLEN -/

theorem exec_refused_of_not_fits {i : Instr} {s : State} (hi : i.isBulk = true) (h : ¬ s.fits s.dlen = true) :
    exec i s = .refused .overCapacity := by
  obtain ⟨f, hf⟩ := exec_eq_bulkCommand hi
  rw [hf, State.bulkCommand, Bool.eq_false_iff.2 h]
  rfl

theorem exec_expkey_withDlen {s t : State} (ht : exec .expkey s = .next t) (d : Nat) :
    exec .expkey { s with dlen := d } = .next { t with dlen := d } := by
  by_cases hk : s.klen = 16 ∨ s.klen = 24 ∨ s.klen = 32
  · rw [exec_expkey_of_keyLength hk] at ht
    cases ht
    exact exec_expkey_of_keyLength (s := { s with dlen := d }) hk
  · rw [exec_expkey_of_not_keyLength hk] at ht
    cases ht
    exact exec_expkey_of_not_keyLength (s := { s with dlen := d }) hk

/-- Settles O47: a length above MAX_DLEN does not fit, and is not 16 since MAX_DLEN is at least 16. -/
theorem oversizeDataIsRefused : Obligations.OversizeDataIsRefused := by
  unfold Obligations.OversizeDataIsRefused
  intro s n hmax hn hd
  have hfits : ¬ s.fits s.dlen = true := fun h => absurd ((fits_iff s _).1 h n hmax) (by omega)
  have hblock : s.dlen ≠ 16 := by omega
  exact ⟨fun i hi => exec_refused_of_not_fits hi hfits,
    fun hsv => ⟨exec_of_not_blockLength (.inl rfl) hsv hblock, exec_of_not_blockLength (.inr rfl) hsv hblock⟩,
    fun d t ht => exec_expkey_withDlen ht d⟩

end Sys2Proof.Machine
end

section
/-! What an operation may write: SV and the access table (R24, R29, R40). -/

namespace Sys2Proof.Machine

theorem isHost_of_isBulk {i : Instr} (h : i.isBulk = true) : i.isHost = true := by
  cases i with
  | encecb | dececb | enccbc | deccbc => rfl
  | _ => cases h

theorem not_isUnit_of_isHost {i : Instr} (h : i.isHost = true) : ¬ i.isHost = false := by
  rw [h]
  exact Bool.noConfusion

theorem not_isUnit_of_isBulk {i : Instr} (h : i.isBulk = true) : ¬ i.isHost = false :=
  not_isUnit_of_isHost (isHost_of_isBulk h)

/-! ### SV -/

section

variable {i : Instr} {s t : State}

/-- The four ways an operation can treat SV: EXPKEY's completion sets it, a bulk command's clears it, an error leaves it, and so
does every operation of another kind. -/
theorem sv_cases_of_exec (h : exec i s = .next t) :
    (i = .expkey ∧ t.err = .none ∧ t.sv = true) ∨ (i.isBulk = true ∧ t.err = .none ∧ t.sv = false) ∨
      (t.err ≠ .none ∧ t.sv = s.sv) ∨ (i ≠ .expkey ∧ i.isBulk = false ∧ t.sv = s.sv) := by
  obtain ⟨k, -, -, hk, rfl⟩ | ⟨rfl, -, rfl⟩ | ⟨rfl | rfl, -, -, bytes, -, rfl⟩ | ⟨hbulk, -, -, bytes, -, rfl⟩ |
    ⟨hunit, -, -, m, o, rfl, -⟩ | ⟨rfl, -, rfl⟩ | ⟨c, rfl, -, rfl⟩ := exec_cases i s t h
  · exact .inr (.inr (.inl ⟨hk, rfl⟩))
  · exact .inl ⟨rfl, rfl, rfl⟩
  · exact .inr (.inr (.inr ⟨Instr.noConfusion, rfl, rfl⟩))
  · exact .inr (.inr (.inr ⟨Instr.noConfusion, rfl, rfl⟩))
  · exact .inr (.inl ⟨hbulk, bulkEpilogue_err .., bulkEpilogue_sv ..⟩)
  · refine .inr (.inr (.inr ⟨?_, Bool.eq_false_iff.2 fun hbulk => not_isUnit_of_isBulk hbulk hunit, rfl⟩))
    rintro rfl
    cases hunit
  · exact .inr (.inr (.inr ⟨Instr.noConfusion, rfl, rfl⟩))
  · exact .inr (.inr (.inr ⟨Instr.noConfusion, rfl, rfl⟩))

theorem sv_of_unit (h : exec i s = .next t) (hi : i.isHost = false) : t.sv = s.sv := by
  obtain ⟨rfl, -⟩ | ⟨hbulk, -⟩ | ⟨-, hsv⟩ | ⟨-, -, hsv⟩ := sv_cases_of_exec h
  · cases hi
  · exact absurd hi (not_isUnit_of_isBulk hbulk)
  · exact hsv
  · exact hsv

theorem sv_access (s : State) (m : HostMove) : (s.access m).sv = s.sv := by
  cases m with
  | reset => rfl
  | writeReg r v => cases r <;> rfl
  | readReg r =>
    obtain ⟨v, n, hr⟩ := readReg_eq_answer s r
    rw [State.access, hr, answer_sv]
  | writeByte x off v =>
    rw [State.access, State.writeByte.eq_def]
    split <;> rfl
  | readByte x off =>
    obtain ⟨v, n, hr⟩ := readByte_eq_answer s x off
    rw [State.access, hr, answer_sv]

/-- A step that changes SV takes a reset, or runs a completing EXPKEY or a completing bulk command from CMD. -/
theorem sv_changes_of_step (h : step s = .next t) (hsv : t.sv ≠ s.sv) :
    (∃ rest, s.host = .reset :: rest) ∨
    (∃ v rest i, s.seq = [] ∧ s.host = .writeReg .cmd v :: rest ∧ decodeCmd (BitVec.ofNat 16 v) = .ok i ∧ t.err = .none ∧
      ((i = .expkey ∧ t.sv = true) ∨ (i.isBulk = true ∧ t.sv = false))) := by
  obtain ⟨rest, hhost, -⟩ | ⟨cw, more, i, -, hi, ht⟩ | ⟨v, rest, i, hseq, hhost, -, hi, ht⟩ | ⟨m, rest, -, -, -, -, -, rfl⟩ |
    ⟨-, -, rfl⟩ := step_cases s t h
  · exact .inl ⟨rest, hhost⟩
  · exact absurd (sv_of_unit ht (isHost_of_decodeBus cw i hi)) hsv
  · obtain ⟨hkey, herr, hset⟩ | ⟨hbulk, herr, hclear⟩ | ⟨-, hkept⟩ | ⟨-, -, hkept⟩ := sv_cases_of_exec ht
    · exact .inr ⟨v, rest, i, hseq, hhost, hi, herr, .inl ⟨hkey, hset⟩⟩
    · exact .inr ⟨v, rest, i, hseq, hhost, hi, herr, .inr ⟨hbulk, hclear⟩⟩
    · exact absurd hkept hsv
    · exact absurd hkept hsv
  · exact absurd (sv_access _ m) hsv
  · exact absurd rfl hsv

end

/-- Settles O51, from the four ways an operation can treat SV and the five things a step can do. -/
theorem onlyExpkeySetsSvAndBulkClearsIt : Obligations.OnlyExpkeySetsSvAndBulkClearsIt := by
  unfold Obligations.OnlyExpkeySetsSvAndBulkClearsIt
  refine ⟨fun i s t h => ?_, fun s t rest hhost h => ?_, fun s t => sv_changes_of_step⟩
  · obtain ⟨rfl, herr, hset⟩ | ⟨hbulk, herr, hclear⟩ | ⟨herr, hkept⟩ | ⟨hkey, hbulk, hkept⟩ := sv_cases_of_exec h
    · exact ⟨fun _ _ => hset, nofun, fun _ h => absurd herr h, fun h => absurd rfl h⟩
    · refine ⟨?_, fun _ _ => hclear, fun _ h => absurd herr h, fun _ h => absurd (hbulk.symm.trans h) Bool.noConfusion⟩
      rintro rfl
      cases hbulk
    · exact ⟨fun _ h => absurd h herr, fun _ h => absurd h herr, fun _ _ => hkept, fun _ _ => hkept⟩
    · exact ⟨fun h => absurd h hkey, fun h => absurd (hbulk.symm.trans h) Bool.noConfusion, fun _ _ => hkept,
        fun _ _ => hkept⟩
  · rw [step_of_reset hhost] at h
    cases h
    rfl

/-! ### The access table -/

section

variable {i : Instr} {s t : State}

/-- No operation writes the input buffers, the length registers, MAX_DLEN, or what stands at the ports but the block handed
back (R40). -/
theorem exec_keeps_inputs (h : exec i s = .next t) :
    t.keybuf = s.keybuf ∧ t.din = s.din ∧ t.ivbuf = s.ivbuf ∧ t.klen = s.klen ∧ t.dlen = s.dlen ∧ t.ivlen = s.ivlen ∧
      t.maxDlen = s.maxDlen ∧ t.host = s.host ∧ t.seq = s.seq ∧ t.rdata = s.rdata ∧ t.epoch = s.epoch ∧
      t.blkIn = s.blkIn := by
  obtain ⟨k, -, -, -, rfl⟩ | ⟨-, -, rfl⟩ | ⟨-, -, -, bytes, -, rfl⟩ | ⟨-, -, -, bytes, -, rfl⟩ | ⟨-, -, -, m, o, rfl, -⟩ |
    ⟨-, -, rfl⟩ | ⟨c, -, -, rfl⟩ := exec_cases i s t h
  all_goals simp

/-- A unit operation moves a block or transforms S, or is LDKEY, or is KEXPCOL. -/
theorem exec_unit_cases (hi : i.isHost = false) (h : exec i s = .next t) :
    ((∀ c, i ≠ .kexpcol c) ∧ i ≠ .ldkey ∧ ∃ m o, t = { s with mat := m, blkOut := o } ∧
      (i = .ststate → m = s.mat) ∧ (i ≠ .ststate → o = s.blkOut)) ∨
    (i = .ldkey ∧ t = s.loadKey) ∨ (∃ c, i = .kexpcol c ∧ t = s.deriveColumn c.toNat) := by
  obtain ⟨_, hhost, -⟩ | ⟨rfl, -⟩ | ⟨rfl | rfl, -⟩ | ⟨hbulk, -⟩ | ⟨-, hmove⟩ | ⟨hldkey, -, ht⟩ | ⟨c, hc, -, ht⟩ :=
    exec_cases i s t h
  · exact absurd hi (not_isUnit_of_isHost hhost)
  · cases hi
  · cases hi
  · cases hi
  · exact absurd hi (not_isUnit_of_isBulk hbulk)
  · exact .inl hmove
  · exact .inr (.inl ⟨hldkey, ht⟩)
  · exact .inr (.inr ⟨c, hc, ht⟩)

/-- Only EXPKEY, LDKEY and the bulk commands write NK and NR, and only they and KEXPCOL write W (R22, R23). -/
theorem exec_keeps_schedule (h : exec i s = .next t) (hexpkey : i ≠ .expkey) (hldkey : i ≠ .ldkey) (hbulk : i.isBulk = false) :
    t.nk = s.nk ∧ t.nr = s.nr ∧ ((∀ c, i ≠ .kexpcol c) → t.w = s.w) := by
  obtain ⟨k, -, -, -, rfl⟩ | ⟨hi, -⟩ | ⟨-, -, -, bytes, -, rfl⟩ | ⟨hi, -⟩ | ⟨-, -, -, m, o, rfl, -⟩ | ⟨hi, -⟩ |
    ⟨c, hi, -, rfl⟩ := exec_cases i s t h
  · exact ⟨rfl, rfl, fun _ => rfl⟩
  · exact absurd hi hexpkey
  · exact ⟨rfl, rfl, fun _ => rfl⟩
  · exact absurd (hbulk.symm.trans hi) Bool.noConfusion
  · exact ⟨rfl, rfl, fun _ => rfl⟩
  · exact absurd hi hldkey
  · exact ⟨rfl, rfl, fun hne => absurd hi (hne c)⟩

/-- Only the CBC commands write CV (R26). -/
theorem exec_keeps_chain (h : exec i s = .next t) (henc : i ≠ .enccbc) (hdec : i ≠ .deccbc) : t.cv = s.cv := by
  obtain ⟨k, -, -, -, rfl⟩ | ⟨-, -, rfl⟩ | ⟨-, -, -, bytes, -, rfl⟩ | ⟨-, -, -, bytes, -, rfl⟩ | ⟨-, -, -, m, o, rfl, -⟩ |
    ⟨-, -, rfl⟩ | ⟨c, -, -, rfl⟩ := exec_cases i s t h
  · rfl
  · rfl
  · rfl
  · simp [henc, hdec]
  · rfl
  · rfl
  · rfl

/-- EXPKEY and the unit operations leave DOUT (R40). -/
theorem exec_keeps_result (h : exec i s = .next t) (hi : i = .expkey ∨ i.isHost = false) : t.dout = s.dout := by
  obtain rfl | hunit := hi
  · by_cases hk : s.klen = 16 ∨ s.klen = 24 ∨ s.klen = 32
    · rw [exec_expkey_of_keyLength hk] at h
      cases h
      rfl
    · rw [exec_expkey_of_not_keyLength hk] at h
      cases h
      rfl
  · obtain ⟨-, -, m, o, rfl, -⟩ | ⟨-, rfl⟩ | ⟨c, -, rfl⟩ := exec_unit_cases hunit h <;> rfl

/-- Only STSTATE hands back a block (R161). -/
theorem exec_keeps_blkOut (h : exec i s = .next t) (hi : i ≠ .ststate) : t.blkOut = s.blkOut := by
  obtain ⟨k, -, -, -, rfl⟩ | ⟨-, -, rfl⟩ | ⟨-, -, -, bytes, -, rfl⟩ | ⟨-, -, -, bytes, -, rfl⟩ |
    ⟨-, -, -, m, o, rfl, -, hblk⟩ | ⟨-, -, rfl⟩ | ⟨c, -, -, rfl⟩ := exec_cases i s t h
  · rfl
  · rfl
  · rfl
  · simp
  · exact hblk hi
  · rfl
  · rfl

/-- A unit operation raises no error and completes no command (R178). -/
theorem exec_unit_keeps_status (h : exec i s = .next t) (hi : i.isHost = false) :
    t.err = s.err ∧ t.olen = s.olen ∧ t.sv = s.sv ∧ t.busy = s.busy := by
  obtain ⟨-, -, m, o, rfl, -⟩ | ⟨-, rfl⟩ | ⟨c, -, rfl⟩ := exec_unit_cases hi h <;> exact ⟨rfl, rfl, rfl, rfl⟩

/-- The one unit operation that draws a free byte is KEXPCOL under an NK other than 4, 6 and 8. -/
theorem exec_unit_keeps_fresh (h : exec i s = .next t) (hi : i.isHost = false)
    (hnk : (∀ c, i ≠ .kexpcol c) ∨ s.nk = 4 ∨ s.nk = 6 ∨ s.nk = 8) : t.fresh = s.fresh := by
  obtain ⟨-, -, m, o, rfl, -⟩ | ⟨-, rfl⟩ | ⟨c, hc, rfl⟩ := exec_unit_cases hi h
  · rfl
  · rfl
  · obtain hne | hcount := hnk
    · exact absurd hc (hne c)
    · rw [deriveColumn_fresh, if_pos ((columnCountOk_iff s.nk).2 hcount)]

/-- The key expander's operations and STSTATE leave S (R40, R161). -/
theorem exec_keeps_mat (h : exec i s = .next t) (hi : i = .expkey ∨ i = .ldkey ∨ (∃ c, i = .kexpcol c) ∨ i = .ststate) :
    t.mat = s.mat := by
  obtain ⟨k, -, -, -, rfl⟩ | ⟨-, -, rfl⟩ | ⟨rfl | rfl, -⟩ | ⟨hbulk, -⟩ |
    ⟨hunit, hkexpcol, hldkey, m, o, rfl, hmat, -⟩ | ⟨-, -, rfl⟩ | ⟨c, -, -, rfl⟩ := exec_cases i s t h
  · rfl
  · rfl
  · simp at hi
  · simp at hi
  · obtain rfl | rfl | ⟨c, rfl⟩ | rfl := hi <;> cases hbulk
  · obtain rfl | hl | ⟨c, hc⟩ | hst := hi
    · cases hunit
    · exact absurd hl hldkey
    · exact absurd hc (hkexpcol c)
    · exact hmat hst
  · rfl
  · rfl

end

/-- Settles O52, one lemma for each entry of the table. -/
theorem accessTable : Obligations.AccessTable := by
  unfold Obligations.AccessTable
  exact fun i s t h => ⟨exec_keeps_inputs h, exec_keeps_schedule h, exec_keeps_chain h, exec_keeps_result h,
    exec_keeps_blkOut h, fun hi => exec_unit_keeps_status h hi, fun hi => exec_unit_keeps_fresh h hi, exec_keeps_mat h⟩

end Sys2Proof.Machine
end
